-- ==== Sys2Proof/Word.lean ====
section
/-! DEFINITION. The plain value types of the block (R7, R16, R17). -/

namespace Sys2Proof

/-- A 32-bit value: a checksum, a TABLE entry, the `arg` of a command (R6 `CRC_W`, R16). -/
abbrev Word := BitVec 32

/-- An 8-bit element of the plaintext side (R6 `BYTE_W`). -/
abbrev Byte := BitVec 8

/-- A 2-bit group, the content of one symbol (R6 `GROUP_W`, R51). -/
abbrev Group := BitVec 2

/-- A ciphertext element: a character code. Its width `CHAR_W` is a parameter, so a code is a natural
number (R7: a value of N bits is a natural number below 2^N); the bound is `Config.charFits`. -/
abbrev CharCode := Nat

end Sys2Proof
end

