-- ==== Sys2Proof/Config.lean ====
section
/-! DEFINITION. The open parameters of R6 and 92_eei_decisions.md section 5, and the two uninterpreted
constants that stand for every implementation whose functional parameters are not the spec's defaults. -/

namespace Sys2Proof

/-- `VAR_DIVISOR` (R6, R157): 4 is the population variance, 3 the sample variance. -/
inductive VarDivisor where
  | population
  | sample
  deriving DecidableEq, Repr

/-- How an implementation settles a parameter that is a function: as the spec's default says, or in some
other way, number `n` of an uninterpreted family (log entry 2). -/
inductive Choice where
  | spec
  | other (n : Nat)
  deriving DecidableEq, Repr

/-- The six open parameters (R6). No operation changes them. -/
structure Config where
  /-- `CHAR_W`, width in bits of a character code, at least 7 (D6). -/
  charW : Nat
  /-- `MAX_LEN`, the largest `in_len` accepted; `none` is unbounded (D21). -/
  maxLen : Option Nat
  /-- `LANES`, the number of operation contexts, at least 1 (D22). -/
  lanes : Nat
  /-- `WellFormedUtf8` (D8). -/
  utf8 : Choice
  /-- `VAR_DIVISOR` (D18). -/
  varDivisor : VarDivisor
  /-- `AltPairCoverage` (D19). -/
  altPairs : Choice
  deriving DecidableEq, Repr

/-- The defaults of R6. -/
def Config.spec : Config :=
  { charW := 8, maxLen := none, lanes := 1, utf8 := .spec, varDivisor := .population, altPairs := .spec }

/-- An implementation's own strict UTF-8 test, left free (R133, U9). DESIGN CHOICE of form, log entry 2. -/
opaque Config.otherUtf8 : Nat → List Byte → Bool

/-- An implementation's own count of elements covered by alternating pairs, left free (R158, U7).
DESIGN CHOICE of form, log entry 2. -/
opaque Config.otherAltPairCoverage : Nat → List CharCode → Nat

end Sys2Proof
end

