-- ==== Sys2Proof/Machine/Params.lean ====
section
/-! DEFINITION. What the parameters of R6 mean where they are plain arithmetic. -/

namespace Sys2Proof

/-- An input of `n` elements is within `MAX_LEN` (R16, R207). -/
def Config.accepts (c : Config) (n : Nat) : Bool :=
  match c.maxLen with
  | none => true
  | some m => decide (n ≤ m)

/-- The code is a value of `CHAR_W` bits (R7, R16). -/
def Config.charFits (c : Config) (code : CharCode) : Bool := decide (code < 2 ^ c.charW)

/-- The number `VAR_DIVISOR` stands for (R6). -/
def VarDivisor.value : VarDivisor → Nat
  | .population => 4
  | .sample => 3

end Sys2Proof
end

