-- ==== Sys2Proof/Syntax.lean ====
section
/-! DEFINITION. The command record (R16) and the eleven operations (R62) with their operands (R63). -/

namespace Sys2Proof

/-- The command record of R16 as the host presents it. `in_len` is the length of `input`, so the two fields
of the record cannot disagree. The elements are numbers: their width depends on the operation (R16). -/
structure Command where
  cmd : BitVec 8
  arg : Word
  input : List Nat
  deriving DecidableEq, Repr

/-- The record's `in_len` (R16). -/
def Command.inLen (r : Command) : Nat := r.input.length

/-- One constructor per row of opcode_table.json, with the operands its format reads (R62, R63): format W
reads `arg`, format B a byte sequence, format S a sequence of character codes. -/
inductive Instr where
  /-- CRC.TBLRD, 0x01, format W (R82). -/
  | crcTblrd (index : Word)
  /-- CRC.CALC, 0x02, format B (R85). -/
  | crcCalc (bytes : List Byte)
  /-- CRC.TOSYM, 0x03, format W (R87). -/
  | crcTosym (checksum : Word)
  /-- CRC.FROMSYM, 0x04, format S (R89). -/
  | crcFromsym (chars : List CharCode)
  /-- SYM.PACK, 0x05, format B (R110). -/
  | symPack (bytes : List Byte)
  /-- SYM.UNPACK, 0x06, format S (R111). -/
  | symUnpack (chars : List CharCode)
  /-- ENCODE, 0x07, format B (R125). -/
  | encode (bytes : List Byte)
  /-- DECODE, 0x08, format S (R130). -/
  | decode (chars : List CharCode)
  /-- DETECT, 0x09, format S (R121). -/
  | detect (chars : List CharCode)
  /-- VALIDATE, 0x0A, format S (R151). -/
  | validate (chars : List CharCode)
  /-- QUALITY, 0x0B, format S (R155). -/
  | quality (chars : List CharCode)
  deriving DecidableEq, Repr

end Sys2Proof
end

