-- ==== Sys2Proof/WellFormed.lean ====
section
/-! DEFINITION. Which parameter choices and which operations can exist (R6, R16). -/

namespace Sys2Proof

/-- The ranges of R6: `CHAR_W` at least 7, `LANES` at least 1. -/
def Config.wf (c : Config) : Bool := decide (7 ≤ c.charW) && decide (1 ≤ c.lanes)

/-- The operands are ones a command record of this configuration can carry (R16): at most `MAX_LEN` elements,
every character code of `CHAR_W` bits. Words and bytes have their widths by type. -/
def Instr.wf (c : Config) : Instr → Bool
  | .crcTblrd _ => true
  | .crcCalc bytes => c.accepts bytes.length
  | .crcTosym _ => true
  | .crcFromsym chars => c.accepts chars.length && chars.all c.charFits
  | .symPack bytes => c.accepts bytes.length
  | .symUnpack chars => c.accepts chars.length && chars.all c.charFits
  | .encode bytes => c.accepts bytes.length
  | .decode chars => c.accepts chars.length && chars.all c.charFits
  | .detect chars => c.accepts chars.length && chars.all c.charFits
  | .validate chars => c.accepts chars.length && chars.all c.charFits
  | .quality chars => c.accepts chars.length && chars.all c.charFits

end Sys2Proof
end

