-- ==== Sys2Proof/Decode.lean ====
section
/-! DEFINITION. From the command record to the operation (R16, R61 to R64), and back. -/

namespace Sys2Proof

/-- Why a command record is no operation. -/
inductive DecodeError where
  /-- A reserved command word (R64): the block answers BAD_COMMAND. -/
  | reserved
  /-- `in_len` exceeds `MAX_LEN` (R207): the command is not accepted. -/
  | inputTooLong
  /-- An element does not have the operation's element width: there is no such command record (R16, R172). -/
  | malformedInput
  deriving DecidableEq, Repr

/-- Format B: the elements as bytes (R63). -/
def readBytes (input : List Nat) : Except DecodeError (List Byte) :=
  if input.all (fun v => decide (v < 256)) then .ok (input.map (BitVec.ofNat 8)) else .error .malformedInput

/-- Format S: the elements as character codes of `CHAR_W` bits (R63). -/
def readChars (c : Config) (input : List Nat) : Except DecodeError (List CharCode) :=
  if input.all c.charFits then .ok input else .error .malformedInput

/-- The operation of an accepted record: `cmd[7:4]` must be 0 and `cmd[3:0]` selects (R61, R62, R64). -/
def decodeAccepted (c : Config) (r : Command) : Except DecodeError Instr :=
  if r.cmd.extractLsb' 4 4 = 0#4 then
    match (r.cmd.extractLsb' 0 4).toNat with
    | 1 => .ok (.crcTblrd r.arg)
    | 2 => (readBytes r.input).map .crcCalc
    | 3 => .ok (.crcTosym r.arg)
    | 4 => (readChars c r.input).map .crcFromsym
    | 5 => (readBytes r.input).map .symPack
    | 6 => (readChars c r.input).map .symUnpack
    | 7 => (readBytes r.input).map .encode
    | 8 => (readChars c r.input).map .decode
    | 9 => (readChars c r.input).map .detect
    | 10 => (readChars c r.input).map .validate
    | 11 => (readChars c r.input).map .quality
    | _ => .error .reserved
  else .error .reserved

/-- Command decode. Acceptance comes first (R65 last row, R207; DEDUCED for reserved words and format W,
log entry 9); a reserved word is reserved whatever IN holds (R178). -/
def decode (c : Config) (r : Command) : Except DecodeError Instr :=
  if c.accepts r.inLen then decodeAccepted c r else .error .inputTooLong

/-- The command record of an operation (R62, R63). Fields the format does not read are 0 or empty
(DESIGN CHOICE, log entry 7). -/
def encode : Instr → Command
  | .crcTblrd index => { cmd := 0x01#8, arg := index, input := [] }
  | .crcCalc bytes => { cmd := 0x02#8, arg := 0#32, input := bytes.map BitVec.toNat }
  | .crcTosym checksum => { cmd := 0x03#8, arg := checksum, input := [] }
  | .crcFromsym chars => { cmd := 0x04#8, arg := 0#32, input := chars }
  | .symPack bytes => { cmd := 0x05#8, arg := 0#32, input := bytes.map BitVec.toNat }
  | .symUnpack chars => { cmd := 0x06#8, arg := 0#32, input := chars }
  | .encode bytes => { cmd := 0x07#8, arg := 0#32, input := bytes.map BitVec.toNat }
  | .decode chars => { cmd := 0x08#8, arg := 0#32, input := chars }
  | .detect chars => { cmd := 0x09#8, arg := 0#32, input := chars }
  | .validate chars => { cmd := 0x0A#8, arg := 0#32, input := chars }
  | .quality chars => { cmd := 0x0B#8, arg := 0#32, input := chars }

/-- The command record whose bits are `w`, of which `nbits` are given and the rest are 0: `cmd` is bits 7:0,
`arg` bits 39:8, and `IN` is empty (DESIGN CHOICE, log entry 7). -/
def commandOfWord (nbits w : Nat) : Command :=
  let v := w % 2 ^ nbits
  { cmd := BitVec.ofNat 8 v, arg := BitVec.ofNat 32 (v / 2 ^ 8), input := [] }

/-- The operation the decoder reads from a row's word, with the default parameters. -/
def decodeTableWord (nbits w : Nat) : Option Instr :=
  match decode Config.spec (commandOfWord nbits w) with
  | .ok i => some i
  | .error _ => none

end Sys2Proof
end

