-- ==== Sys2Proof/Machine/Response.lean ====
section
/-! DEFINITION. The response record as a sum type (R17, R18) and the errors it can report (R171). The codes
and fields are computed in Flags.lean. -/

namespace Sys2Proof.Machine

/-- Format version (R67). -/
inductive Version where
  | unknown
  | v1
  | v2
  | empty
  deriving DecidableEq, Repr

/-- What `Validate` answers (R150): `is_valid` with `reason`, and for BAD_CHAR the first offending character
and its 1-based position. -/
inductive Verdict where
  | valid
  | empty
  | badChar (errChar : CharCode) (errPos : Nat)
  deriving DecidableEq, Repr

/-- What `Detect` answers (R120). -/
structure Detection where
  version : Version
  hasCrc : Bool
  mainLen : Nat
  crcLen : Nat
  isValid : Bool
  deriving DecidableEq, Repr

/-- The error kinds with their payloads (R171). -/
inductive OpError where
  /-- ENCODING_ERROR: allocated, raised by nothing (R172). -/
  | encoding
  /-- FORMAT_ERROR: raised by DECODE (R173). -/
  | format
  /-- VALIDATION_ERROR: raised by DECODE, CRC.FROMSYM, SYM.UNPACK (R174). -/
  | validation (errChar : CharCode) (errPos : Nat)
  /-- DECODING_ERROR: raised by DECODE, with the recovered bytes (R175). -/
  | decoding (out : List Byte)
  /-- INTEGRITY_ERROR: raised by DECODE on v2 input (R176). -/
  | integrity (expected actual : Word)
  /-- LENGTH_ERROR: raised by CRC.FROMSYM (R177). -/
  | length
  /-- BAD_COMMAND: a reserved command word, or CRC.TBLRD with `arg > 255` (R179). -/
  | badCommand
  deriving DecidableEq, Repr

/-- A response, one constructor per shape of R18. `out_len` is the length of the sequence carried. -/
inductive Response where
  /-- `value`: CRC.TBLRD, CRC.CALC, CRC.FROMSYM. -/
  | value (value : Word)
  /-- `out_len`, `OUT` of character codes: CRC.TOSYM, SYM.PACK, ENCODE. -/
  | symbols (out : List CharCode)
  /-- `out_len`, `OUT` of bytes: SYM.UNPACK. -/
  | bytes (out : List Byte)
  /-- `out_len`, `OUT`, `verified`, `version`: DECODE. -/
  | decoded (out : List Byte) (verified : Bool) (version : Version)
  /-- `version`, `has_crc`, `main_len`, `crc_len`, `is_valid`: DETECT. -/
  | detected (d : Detection)
  /-- `is_valid`, `reason`, and `err_char`, `err_pos` for BAD_CHAR: VALIDATE. -/
  | validated (v : Verdict)
  /-- `quality`, `issues`: QUALITY. -/
  | scored (quality : BitVec 7) (issues : BitVec 3)
  /-- An error status with its payload and nothing else (R181). -/
  | error (e : OpError)
  deriving DecidableEq, Repr

end Sys2Proof.Machine
end

