-- ==== Sys2Proof/Machine/Operands.lean ====
section
/-! DEFINITION. The symbol mapper (R100 to R102), the packer and unpacker (R103 to R109), the checksum block
(R86, R88) and the left-to-right symbol check that VALIDATE, CRC.FROMSYM, SYM.UNPACK and DECODE share. -/

namespace Sys2Proof.Machine

/-- `SymOf(g)` (R100). -/
def symOf (g : Group) : CharCode :=
  match g.toNat with
  | 0 => 0x4F
  | 1 => 0x30
  | 2 => 0x49
  | _ => 0x6C

/-- `GroupOf(c)`, defined on the four symbols only (R101). -/
def groupOf (c : CharCode) : Option Group :=
  if c = 0x4F then some 0#2
  else if c = 0x30 then some 1#2
  else if c = 0x49 then some 2#2
  else if c = 0x6C then some 3#2
  else none

/-- `IsSymbol(c)`: the whole code is one of the four (R102). -/
def isSymbol (c : CharCode) : Bool := c == 0x4F || c == 0x30 || c == 0x49 || c == 0x6C

/-- The groups of a symbol sequence, in order. Every rule that uses it has checked `IsSymbol` first (R101), so
that none is left out. -/
def groupsOf (s : List CharCode) : List Group := s.filterMap groupOf

/-- A byte as its 8-bit string, most significant bit first (R33, R103). -/
def byteBits (v : Byte) : List Bool := (List.range 8).map (fun m => v.getLsbD (7 - m))

/-- `BytesToBits(B)` (R103). -/
def bytesToBits (bytes : List Byte) : List Bool := bytes.flatMap byteBits

/-- `PadEven(b)` (R104). -/
def padEven (b : List Bool) : List Bool := if b.length % 2 = 0 then b else b ++ [false]

/-- `BitsToGroups(b)`: the left bit of a pair is the high bit (R105). -/
def bitsToGroups : List Bool → List Group
  | hi :: lo :: rest => BitVec.ofNat 2 (2 * hi.toNat + lo.toNat) :: bitsToGroups rest
  | _ => []

/-- `GroupsToBits(G)` (R106). -/
def groupsToBits (gs : List Group) : List Bool := gs.flatMap (fun g => [g.getLsbD 1, g.getLsbD 0])

/-- The unsigned byte of eight bits, the first the most significant (R107). -/
def byteOfBits (b7 b6 b5 b4 b3 b2 b1 b0 : Bool) : Byte :=
  BitVec.ofNat 8 (128 * b7.toNat + 64 * b6.toNat + 32 * b5.toNat + 16 * b4.toNat
    + 8 * b3.toNat + 4 * b2.toNat + 2 * b1.toNat + b0.toNat)

/-- `BitsToBytes(b)`: fewer than eight bits left over are dropped (R107, R183). -/
def bitsToBytes : List Bool → List Byte
  | b7 :: b6 :: b5 :: b4 :: b3 :: b2 :: b1 :: b0 :: rest =>
    byteOfBits b7 b6 b5 b4 b3 b2 b1 b0 :: bitsToBytes rest
  | _ => []

/-- `Pack(B)` (R108). -/
def pack (bytes : List Byte) : List CharCode := (bitsToGroups (padEven (bytesToBits bytes))).map symOf

/-- `Unpack(s)` of a symbol sequence (R109). -/
def unpack (s : List CharCode) : List Byte := bitsToBytes (groupsToBits (groupsOf s))

/-- The first element that is not a symbol, with its position, counted from `pos` (R31, R150). -/
def firstNonSymbol (pos : Nat) : List CharCode → Option (CharCode × Nat)
  | [] => none
  | c :: rest => if isSymbol c then firstNonSymbol (pos + 1) rest else some (c, pos)

/-- The per-character test: VALIDATION_ERROR for the leftmost non-symbol, with its 1-based position (R174). -/
def requireSymbols (s : List CharCode) : Except OpError Unit :=
  match firstNonSymbol 1 s with
  | none => .ok ()
  | some (c, p) => .error (.validation c p)

/-- `ToSymbols(c)`: symbol `j` carries the group `c[31−2j : 30−2j]` (R86). -/
def toSymbols (c : Word) : List CharCode :=
  (List.range 16).map (fun j => symOf (c.extractLsb' (30 - 2 * j) 2))

/-- The value of groups read as one number, the first group the most significant (R60, R88). -/
def wordOfGroups (gs : List Group) : Word := gs.foldl (fun c g => (c <<< 2) ||| g.setWidth 32) 0#32

/-- `FromSymbols(s)`: length first, then the characters left to right (R88). -/
def fromSymbols (s : List CharCode) : Except OpError Word :=
  if s.length = 16 then
    match requireSymbols s with
    | .ok _ => .ok (wordOfGroups (groupsOf s))
    | .error e => .error e
  else .error .length

end Sys2Proof.Machine
end

