-- ==== Sys2Proof/Machine/Table.lean ====
section
/-! DEFINITION. The checksum lookup table: its construction (R80) and its one kind of read (R42). -/

namespace Sys2Proof.Machine

/-- TABLE: 256 entries of 32 bits (R13). -/
abbrev CrcTable := Vector Word 256

/-- One of the eight steps of R80: shift right, and XOR with the polynomial when the bit shifted out is 1. -/
def tableStep (c : Word) : Word :=
  if c.getLsbD 0 then (c >>> 1) ^^^ 0xEDB88320#32 else c >>> 1

/-- Entry `i` of `BuildTable()` (R80). -/
def tableEntry (i : Nat) : Word := Nat.repeat tableStep 8 (BitVec.ofNat 32 i)

/-- `BuildTable()` (R80). -/
def buildTable : CrcTable := ⟨((List.range 256).map tableEntry).toArray, by simp⟩

/-- `TABLE[i]`: the index is 8 bits wide, so no read is out of range (R42). -/
def tableRead (t : CrcTable) (i : BitVec 8) : Word := t[i.toNat]'(i.isLt)

end Sys2Proof.Machine
end

