-- ==== Sys2Proof/Machine/State.lean ====
section
/-! DEFINITION. The state of the block as plain data, what ends a run, and reset (R10 to R22, R200, R201). -/

namespace Sys2Proof.Machine

/-- One operation context (R21). Operations are atomic and keep nothing (R15, R40), so between steps a lane is
idle and holds only the responses it has delivered and the host has not yet taken, oldest first (log entry 4). -/
structure Lane where
  responses : List Response
  deriving DecidableEq, Repr

/-- What the outside world can do to the block (R16, R202, R204; log entry 3). -/
inductive HostEvent where
  /-- The host issues a command record to a lane (R16, R21). -/
  | issue (lane : Nat) (record : Command)
  /-- The host takes, or discards, the responses outstanding on a lane (R204). -/
  | take (lane : Nat)
  /-- The block is reset (R200, R202). -/
  | reset
  deriving DecidableEq, Repr

/-- The whole machine. -/
structure State where
  /-- The open parameters, fixed for the machine (R6; log entry 2). -/
  config : Config
  /-- TABLE, the one piece of persistent state (R13; log entry 1). -/
  table : CrcTable
  /-- The lanes, number 0 first (R21). -/
  lanes : List Lane
  /-- The MODEL's own: the events the outside world presents, in order (log entry 3). -/
  host : List HostEvent
  /-- The MODEL's own: the lane whose operation is being performed (log entry 3). -/
  active : Nat
  deriving DecidableEq, Repr

/-- The block has no machine fault: errors are responses (R170, R181), and R184 lists why no index, arithmetic
or loop can fail. So no step ends in a fault. -/
inductive Fault
  deriving DecidableEq, Repr

/-- Why the machine takes no step. -/
inductive Refusal where
  /-- Raised by an arm of `exec` whose operation has no meaning yet; there is none. Safe. -/
  | notModelled (mnemonic : String)
  /-- Raised by the step when a command's `in_len` exceeds `MAX_LEN`: "it has no step and no response" (R207). Safe. -/
  | inputTooLong
  /-- Raised by the step when an element of IN does not fit the operation's element width: such a command
  record cannot be presented (R16, R172; log entry 8). Safe. -/
  | malformedInput
  /-- Raised by the step when the host names a lane the block does not have (R21; log entry 10). Safe. -/
  | noSuchLane
  deriving DecidableEq, Repr

/-- A lane with nothing in progress and nothing outstanding (R201). -/
def Lane.idle : Lane := { responses := [] }

/-- The block right after reset, for any parameter values (R22, R200, R201): TABLE built, every lane idle.
The model's own fields start empty and at 0 (DESIGN CHOICE, log entry 3). -/
def State.resetWith (c : Config) : State :=
  { config := c, table := buildTable, lanes := List.replicate c.lanes Lane.idle, host := [], active := 0 }

/-- The block right after reset, with the default parameters of R6. -/
def State.reset : State := State.resetWith Config.spec

end Sys2Proof.Machine
end

