-- ==== Sys2Proof/Machine/Ops.lean ====
section
/-! DEFINITION. The shared operations: the checksum fold (R84), delivering a response and raising an error
(R17, R181), and what the host's events do to the lanes (R182, R202, R204). -/

namespace Sys2Proof.Machine

/-- One fold step of R84: `TABLE[(CRCREG XOR byte) AND 0xFF] XOR (CRCREG >>> 8)`. -/
def crcUpdate (t : CrcTable) (reg : Word) (b : Byte) : Word :=
  tableRead t (((reg ^^^ b.setWidth 32) &&& 0xFF#32).setWidth 8) ^^^ (reg >>> 8)

/-- CRCREG after folding the bytes, first byte first, from `reg` (R84). -/
def crcFold (t : CrcTable) (reg : Word) (bytes : List Byte) : Word := bytes.foldl (crcUpdate t) reg

/-- `Crc(B)`: the fold from 0xFFFFFFFF, complemented (R84). -/
def crc (t : CrcTable) (bytes : List Byte) : Word := crcFold t 0xFFFFFFFF#32 bytes ^^^ 0xFFFFFFFF#32

/-- The lane with one more response outstanding. -/
def Lane.deliver (r : Response) (l : Lane) : Lane := { l with responses := l.responses ++ [r] }

/-- The response appears whole on the lane that runs the operation, and nothing else changes (R17, R40, R41). -/
def State.respond (s : State) (r : Response) : State :=
  { s with lanes := s.lanes.modify s.active (Lane.deliver r) }

/-- Taking an exception on this block: `raise Kind(payload)` ends the operation with the status and payload of
the kind; there is no cause register, saved address, vector or mode change (R181). The lane is idle again, so
nothing is ever returned from (R182). -/
def State.raise (s : State) (e : OpError) : State := s.respond (.error e)

/-- The end of an operation: its result, or the error it raised. -/
def State.finish (s : State) : Except OpError Response → Host.Outcome State Fault Refusal
  | .ok r => .next (s.respond r)
  | .error e => .next (s.raise e)

/-- Lane `k` begins the operation the host issued to it (R11, R21). -/
def State.onLane (s : State) (k : Nat) : State := { s with active := k }

/-- The host takes the responses outstanding on lane `k` (R204). -/
def State.take (s : State) (k : Nat) : State := { s with lanes := s.lanes.modify k (fun _ => Lane.idle) }

/-- Reset as an event (R200, R202): the reset state of the same block; the events still to come stay the host's. -/
def State.resetEvent (s : State) : State := { State.resetWith s.config with host := s.host }

end Sys2Proof.Machine
end

