-- ==== Sys2Proof/Machine/Checksum.lean ====
section
/-! DEFINITION. The Checksum Engine's operations: CRC.TBLRD, CRC.CALC, CRC.TOSYM, CRC.FROMSYM
(40_checksum_engine.md). -/

namespace Sys2Proof.Machine

/-- CRC.TBLRD (R82): `BAD_COMMAND` when `arg > 255`, else `TABLE[arg[7:0]]`. -/
def execCrcTblrd (index : Word) (s : State) : Host.Outcome State Fault Refusal :=
  if 255 < index.toNat then .next (s.raise .badCommand)
  else .next (s.respond (.value (tableRead s.table (index.extractLsb' 0 8))))

/-- CRC.CALC (R85). -/
def execCrcCalc (bytes : List Byte) (s : State) : Host.Outcome State Fault Refusal :=
  .next (s.respond (.value (crc s.table bytes)))

/-- CRC.TOSYM (R87). -/
def execCrcTosym (checksum : Word) (s : State) : Host.Outcome State Fault Refusal :=
  .next (s.respond (.symbols (toSymbols checksum)))

/-- CRC.FROMSYM (R89). -/
def execCrcFromsym (chars : List CharCode) (s : State) : Host.Outcome State Fault Refusal :=
  s.finish ((fromSymbols chars).map .value)

end Sys2Proof.Machine
end

