-- ==== Sys2Proof/Machine/Utf8.lean ====
section
/-! DEFINITION. The strict UTF-8 test `WellFormedUtf8` (R133). -/

namespace Sys2Proof.Machine

/-- A range of byte values, both ends included. -/
structure ByteRange where
  lo : Byte
  hi : Byte
  deriving DecidableEq, Repr

/-- The byte lies in the range. -/
def ByteRange.has (r : ByteRange) (b : Byte) : Bool := decide (r.lo ≤ b) && decide (b ≤ r.hi)

/-- The continuation bytes 0x80 to 0xBF. -/
def contRange : ByteRange := { lo := 0x80, hi := 0xBF }

/-- The table of R133, row by row: the range of the first byte and those of the bytes after it. -/
def utf8Rows : List (ByteRange × List ByteRange) :=
  [ ({ lo := 0x00, hi := 0x7F }, []),
    ({ lo := 0xC2, hi := 0xDF }, [contRange]),
    ({ lo := 0xE0, hi := 0xE0 }, [{ lo := 0xA0, hi := 0xBF }, contRange]),
    ({ lo := 0xE1, hi := 0xEC }, [contRange, contRange]),
    ({ lo := 0xED, hi := 0xED }, [{ lo := 0x80, hi := 0x9F }, contRange]),
    ({ lo := 0xEE, hi := 0xEF }, [contRange, contRange]),
    ({ lo := 0xF0, hi := 0xF0 }, [{ lo := 0x90, hi := 0xBF }, contRange, contRange]),
    ({ lo := 0xF1, hi := 0xF3 }, [contRange, contRange, contRange]),
    ({ lo := 0xF4, hi := 0xF4 }, [{ lo := 0x80, hi := 0x8F }, contRange, contRange]) ]

/-- Reads bytes left to right; `due` are the ranges the sequence begun still asks for. The ranges of the first
bytes are disjoint, so at most one row of the table fits. -/
def utf8Scan (due : List ByteRange) : List Byte → Bool
  | [] => due.isEmpty
  | b :: rest =>
    match due with
    | r :: more => r.has b && utf8Scan more rest
    | [] =>
      match utf8Rows.find? (fun row => row.1.has b) with
      | some row => utf8Scan row.2 rest
      | none => false

/-- The default of R133: a concatenation of sequences each matching one row. -/
def utf8WellFormed (bytes : List Byte) : Bool := utf8Scan [] bytes

/-- `WellFormedUtf8(B)` under the parameter (R6, R133). -/
def wellFormedUtf8 (c : Config) (bytes : List Byte) : Bool :=
  match c.utf8 with
  | .spec => utf8WellFormed bytes
  | .other n => Config.otherUtf8 n bytes

end Sys2Proof.Machine
end

