-- ==== Sys2Proof/Machine/Codec.lean ====
section
/-! DEFINITION. The Symbol Codec: DETECT, ENCODE, DECODE (42_codec.md). -/

namespace Sys2Proof.Machine

/-- `Detect` of a sequence of length `n`; the characters are not looked at (R120, R124). The three fields of
the unknown row that the source does not give are 0 as R120 fixes them (U4; log entry 6). -/
def detect (n : Nat) : Detection :=
  if 16 < n ∧ (n - 16) % 4 = 0 then
    { version := .v2, hasCrc := true, mainLen := n - 16, crcLen := 16, isValid := true }
  else if n % 4 = 0 ∧ 0 < n then
    { version := .v1, hasCrc := false, mainLen := n, crcLen := 0, isValid := true }
  else
    { version := .unknown, hasCrc := false, mainLen := 0, crcLen := 0, isValid := false }

/-- The ciphertext of ENCODE: empty for empty input, else main cipher and checksum block (R125). -/
def ciphertextOf (t : CrcTable) (bytes : List Byte) : List CharCode :=
  if bytes.length = 0 then [] else pack bytes ++ toSymbols (crc t bytes)

/-- Step 5 of DECODE: a v1 input, all symbols (R130). -/
def decodeV1 (c : Config) (s : List CharCode) : Except OpError Response :=
  let bytes := unpack s
  if wellFormedUtf8 c bytes then .ok (.decoded bytes false .v1) else .error (.decoding bytes)

/-- Step 4 of DECODE: a v2 input, all symbols, split in main cipher and checksum block. The UTF-8 test comes
before the checksum comparison (R130, R178, C10). -/
def decodeV2 (c : Config) (t : CrcTable) (main block : List CharCode) : Except OpError Response :=
  match fromSymbols block with
  | .error e => .error e
  | .ok expected =>
    let bytes := unpack main
    if wellFormedUtf8 c bytes then
      let actual := crc t bytes
      if actual = expected then .ok (.decoded bytes true .v2) else .error (.integrity expected actual)
    else .error (.decoding bytes)

/-- DECODE's steps in their order (R130). Where `Validate` stands in step 3 the input is not empty, so its only
failure is the leftmost non-symbol, which is `requireSymbols`. -/
def decodeResult (c : Config) (t : CrcTable) (s : List CharCode) : Except OpError Response :=
  let n := s.length
  if n = 0 then .ok (.decoded [] false .empty)
  else
    let version := (detect n).version
    if version = .unknown then .error .format
    else
      match requireSymbols s with
      | .error e => .error e
      | .ok _ =>
        if version = .v2 then decodeV2 c t (s.take (n - 16)) (s.drop (n - 16)) else decodeV1 c s

/-- DETECT (R121): always `OK`. -/
def execDetect (chars : List CharCode) (s : State) : Host.Outcome State Fault Refusal :=
  .next (s.respond (.detected (detect chars.length)))

/-- ENCODE (R125): no error, no UTF-8 check (R126, R128). -/
def execEncode (bytes : List Byte) (s : State) : Host.Outcome State Fault Refusal :=
  .next (s.respond (.symbols (ciphertextOf s.table bytes)))

/-- DECODE (R130). -/
def execDecode (chars : List CharCode) (s : State) : Host.Outcome State Fault Refusal :=
  s.finish (decodeResult s.config s.table chars)

end Sys2Proof.Machine
end

