-- ==== Sys2Proof/Machine/Packer.lean ====
section
/-! DEFINITION. The packer's operations: SYM.PACK and SYM.UNPACK (41_symbol_packer.md). -/

namespace Sys2Proof.Machine

/-- SYM.PACK (R110): no UTF-8 check, no error. -/
def execSymPack (bytes : List Byte) (s : State) : Host.Outcome State Fault Refusal :=
  .next (s.respond (.symbols (pack bytes)))

/-- SYM.UNPACK (R111): every character is checked, also those whose bits are then dropped. -/
def execSymUnpack (chars : List CharCode) (s : State) : Host.Outcome State Fault Refusal :=
  s.finish ((requireSymbols chars).map (fun _ => .bytes (unpack chars)))

end Sys2Proof.Machine
end

