-- ==== Sys2Proof/Machine/Flags.lean ====
section
/-! DEFINITION. The codes and one-bit results of a response: status, version, reason and issue codes
(R66 to R69), and every field of R17, absent where R18 does not list it. -/

namespace Sys2Proof.Machine

/-- `status`, 4 bits (R66); 8 to 15 are reserved. -/
def OpError.status : OpError → BitVec 4
  | .encoding => 1
  | .format => 2
  | .validation _ _ => 3
  | .decoding _ => 4
  | .integrity _ _ => 5
  | .length => 6
  | .badCommand => 7

/-- `status` of a response: 0 is `OK` (R66). -/
def Response.status : Response → BitVec 4
  | .error e => e.status
  | .value _ => 0
  | .symbols _ => 0
  | .bytes _ => 0
  | .decoded _ _ _ => 0
  | .detected _ => 0
  | .validated _ => 0
  | .scored _ _ => 0

/-- `version`, 2 bits (R67). -/
def Version.code : Version → BitVec 2
  | .unknown => 0
  | .v1 => 1
  | .v2 => 2
  | .empty => 3

/-- `reason`, 2 bits (R68). -/
def Verdict.reasonCode : Verdict → BitVec 2
  | .valid => 0
  | .empty => 1
  | .badChar _ _ => 2

/-- `is_valid` of VALIDATE (R68, R150). -/
def Verdict.isValid : Verdict → Bool
  | .valid => true
  | .empty => false
  | .badChar _ _ => false

/-- `issues`: bit 0 DIST, bit 1 SHORT, bit 2 PATTERN (R69). -/
def issueBits (dist short pattern : Bool) : BitVec 3 :=
  BitVec.ofNat 3 (4 * pattern.toNat + 2 * short.toNat + dist.toNat)

/-- The score: 100 with the three independent deductions (R155). -/
def score (dist short pattern : Bool) : BitVec 7 :=
  100#7 - (if dist then 20#7 else 0#7) - (if short then 10#7 else 0#7) - (if pattern then 15#7 else 0#7)

/-- The fields of R17 that R18 lists for a response; every other field is absent. -/
structure Fields where
  status : BitVec 4
  outLen : Option Nat := none
  outBytes : Option (List Byte) := none
  outChars : Option (List CharCode) := none
  value : Option Word := none
  version : Option (BitVec 2) := none
  verified : Option Bool := none
  hasCrc : Option Bool := none
  isValid : Option Bool := none
  mainLen : Option Nat := none
  crcLen : Option Nat := none
  reason : Option (BitVec 2) := none
  errChar : Option CharCode := none
  errPos : Option Nat := none
  expected : Option Word := none
  actual : Option Word := none
  quality : Option (BitVec 7) := none
  issues : Option (BitVec 3) := none
  deriving DecidableEq, Repr

/-- The payload rows of R171. -/
def OpError.fields (e : OpError) : Fields :=
  match e with
  | .encoding => { status := e.status }
  | .format => { status := e.status }
  | .validation c p => { status := e.status, errChar := some c, errPos := some p }
  | .decoding out => { status := e.status, outLen := some out.length, outBytes := some out }
  | .integrity want got => { status := e.status, expected := some want, actual := some got }
  | .length => { status := e.status }
  | .badCommand => { status := e.status }

/-- `reason` and `is_valid`, with the character and position for BAD_CHAR only (R18, R151). -/
def Verdict.fields (v : Verdict) : Fields :=
  match v with
  | .valid => { status := 0, isValid := some v.isValid, reason := some v.reasonCode }
  | .empty => { status := 0, isValid := some v.isValid, reason := some v.reasonCode }
  | .badChar c p =>
    { status := 0, isValid := some v.isValid, reason := some v.reasonCode, errChar := some c, errPos := some p }

/-- The response as the record of R17 that the host reads (R18). -/
def Response.fields : Response → Fields
  | .value v => { status := 0, value := some v }
  | .symbols out => { status := 0, outLen := some out.length, outChars := some out }
  | .bytes out => { status := 0, outLen := some out.length, outBytes := some out }
  | .decoded out verified ver =>
    { status := 0, outLen := some out.length, outBytes := some out, verified := some verified,
      version := some ver.code }
  | .detected d =>
    { status := 0, version := some d.version.code, hasCrc := some d.hasCrc, mainLen := some d.mainLen,
      crcLen := some d.crcLen, isValid := some d.isValid }
  | .validated v => v.fields
  | .scored q bits => { status := 0, quality := some q, issues := some bits }
  | .error e => e.fields

end Sys2Proof.Machine
end

