-- ==== Sys2Proof/Machine/Validator.lean ====
section
/-! DEFINITION. The Format Validator: VALIDATE and QUALITY (43_validator.md). -/

namespace Sys2Proof.Machine

/-- `Validate(s)` (R150). -/
def validate (s : List CharCode) : Verdict :=
  if s.length = 0 then .empty
  else
    match firstNonSymbol 1 s with
    | none => .valid
    | some (c, p) => .badChar c p

/-- `cnt[i]`: elements equal to the code of the symbol of group `g` (R156). -/
def symbolCount (s : List CharCode) (g : Group) : Nat := s.countP (fun c => c == symOf g)

/-- The four counts in the order `O`, `0`, `I`, `l` (R156). -/
def symbolCounts (s : List CharCode) : List Nat := [0#2, 1#2, 2#2, 3#2].map (symbolCount s)

/-- `DistVarianceExceeds300` in the exact integer form of R157; it is false when `n = 0`. -/
def distVarianceExceeds300 (c : Config) (s : List CharCode) : Bool :=
  let counts := symbolCounts s
  let total : Int := counts.sum
  let spread := (counts.map (fun k => (4 * (k : Int) - total) * (4 * (k : Int) - total))).sum
  decide (12 * (c.varDivisor.value : Int) * ((s.length : Int) * (s.length : Int)) < 25 * spread)

/-- The run test: four identical consecutive elements, symbols or not (R158). -/
def hasRun (s : List CharCode) : Bool :=
  (List.range (s.length - 3)).any (fun j => s[j]? == s[j + 1]? && s[j + 1]? == s[j + 2]? && s[j + 2]? == s[j + 3]?)

/-- Index `j` starts an alternating window ABAB, A ≠ B (R158). -/
def altWindow (s : List CharCode) (j : Nat) : Bool :=
  decide (j + 4 ≤ s.length) && s[j]? == s[j + 2]? && s[j + 1]? == s[j + 3]? && s[j]? != s[j + 1]?

/-- The default `AltPairCoverage`: the number of indices that lie in some alternating window (R158). -/
def altPairCoverageSpec (s : List CharCode) : Nat :=
  (List.range s.length).countP
    (fun i => (List.range s.length).any (fun j => altWindow s j && decide (j ≤ i) && decide (i ≤ j + 3)))

/-- `AltPairCoverage` under the parameter (R6, R158). -/
def altPairCoverage (c : Config) (s : List CharCode) : Nat :=
  match c.altPairs with
  | .spec => altPairCoverageSpec s
  | .other n => Config.otherAltPairCoverage n s

/-- `ObviousPattern(IN)` (R158); the alternating-pairs test is false when `n = 0`. -/
def obviousPattern (c : Config) (s : List CharCode) : Bool :=
  hasRun s || (decide (0 < s.length) && decide (30 * s.length < 100 * altPairCoverage c s))

/-- VALIDATE (R151): always `OK`. -/
def execValidate (chars : List CharCode) (s : State) : Host.Outcome State Fault Refusal :=
  .next (s.respond (.validated (validate chars)))

/-- QUALITY (R155): always `OK`. -/
def execQuality (chars : List CharCode) (s : State) : Host.Outcome State Fault Refusal :=
  let dist := distVarianceExceeds300 s.config chars
  let short := decide (chars.length < 8)
  let pattern := obviousPattern s.config chars
  .next (s.respond (.scored (score dist short pattern) (issueBits dist short pattern)))

end Sys2Proof.Machine
end

