-- ==== Sys2Proof/Machine/Dispatch.lean ====
section
/-! DEFINITION. One arm per operation (R62): the meaning of each. -/

namespace Sys2Proof.Machine

def exec (i : Instr) (s : State) : Host.Outcome State Fault Refusal :=
  match i with
  | .crcTblrd index => Sys2Proof.Machine.execCrcTblrd index s
  | .crcCalc bytes => Sys2Proof.Machine.execCrcCalc bytes s
  | .crcTosym checksum => Sys2Proof.Machine.execCrcTosym checksum s
  | .crcFromsym chars => Sys2Proof.Machine.execCrcFromsym chars s
  | .symPack bytes => Sys2Proof.Machine.execSymPack bytes s
  | .symUnpack chars => Sys2Proof.Machine.execSymUnpack chars s
  | .encode bytes => Sys2Proof.Machine.execEncode bytes s
  | .decode chars => Sys2Proof.Machine.execDecode chars s
  | .detect chars => Sys2Proof.Machine.execDetect chars s
  | .validate chars => Sys2Proof.Machine.execValidate chars s
  | .quality chars => Sys2Proof.Machine.execQuality chars s

end Sys2Proof.Machine
end

