-- ==== Sys2Proof/Machine/Transaction.lean ====
section
/-! DEFINITION. One transaction: the event the outside world presents, and what the block does with it
(R5, R11, R64, R202, R204, R207). -/

namespace Sys2Proof.Machine

/-- The block performs a command record on the lane that is active: it decodes it and runs the operation; a
reserved word is answered with BAD_COMMAND (R64); a record that is not accepted has no step (R207). -/
def perform (r : Command) (s : State) : Host.Outcome State Fault Refusal :=
  match decode s.config r with
  | .ok i => exec i s
  | .error .reserved => .next (s.raise .badCommand)
  | .error .inputTooLong => .refused .inputTooLong
  | .error .malformedInput => .refused .malformedInput

/-- One event, already taken off the list of events to come. -/
def handle (e : HostEvent) (s : State) : Host.Outcome State Fault Refusal :=
  match e with
  | .issue k r => if k < s.lanes.length then perform r (s.onLane k) else .refused .noSuchLane
  | .take k => if k < s.lanes.length then .next (s.take k) else .refused .noSuchLane
  | .reset => .next s.resetEvent

/-- The next event, if there is one, taken off the list. -/
def nextEvent (s : State) : Option (HostEvent × State) :=
  match s.host with
  | [] => none
  | e :: rest => some (e, { s with host := rest })

/-- The state in which the host is about to issue the record to lane `k`. -/
def State.present (s : State) (k : Nat) (r : Command) : State := { s with host := .issue k r :: s.host }

end Sys2Proof.Machine
end

