-- ==== Sys2Proof/Machine/Step.lean ====
section
/-! DEFINITION. The step: one transaction, or nothing when the outside world presents nothing (R5, R201;
log entry 3). -/

namespace Sys2Proof.Machine

/-- One step of the machine. -/
def step (s : State) : Host.Outcome State Fault Refusal :=
  match nextEvent s with
  | none => .next s
  | some (e, s') => handle e s'

/-- The host issues, as its next event and to lane 0, the command record whose bits are `w` (log entry 3). -/
def State.withFetchWord (s : State) (nbits w : Nat) : State := s.present 0 (commandOfWord nbits w)

end Sys2Proof.Machine
end

