-- ==== Sys2Proof/Safety.lean ====
section
/-! DEFINITION. What a sound state and an acceptable event are, in the terms the claims use. -/

namespace Sys2Proof

/-- The record is one the host can present (R16): at most `MAX_LEN` elements, bytes for the three operations of
format B, character codes of `CHAR_W` bits for the six of format S (R63). -/
def Command.Presentable (c : Config) (r : Command) : Prop :=
  (∀ m, c.maxLen = some m → r.input.length ≤ m) ∧
  (r.cmd = 0x02#8 ∨ r.cmd = 0x05#8 ∨ r.cmd = 0x07#8 → ∀ v ∈ r.input, v < 256) ∧
  (r.cmd = 0x04#8 ∨ r.cmd = 0x06#8 ∨ r.cmd = 0x08#8 ∨ r.cmd = 0x09#8 ∨ r.cmd = 0x0A#8 ∨ r.cmd = 0x0B#8 →
    ∀ v ∈ r.input, v < 2 ^ c.charW)

end Sys2Proof

namespace Sys2Proof.Machine

/-- The payload of an error says what R171 says of it; ENCODING_ERROR is never raised (R172). -/
def OpError.WF (c : Config) : OpError → Prop
  | .encoding => False
  | .format => True
  | .validation code pos => c.charFits code = true ∧ isSymbol code = false ∧ 1 ≤ pos
  | .decoding out => wellFormedUtf8 c out = false ∧ 1 ≤ out.length
  | .integrity expected actual => expected ≠ actual
  | .length => True
  | .badCommand => True

/-- What VALIDATE reports (R150): a bad character is no symbol and its position counts from 1. -/
def Verdict.WF (c : Config) : Verdict → Prop
  | .valid => True
  | .empty => True
  | .badChar code pos => c.charFits code = true ∧ isSymbol code = false ∧ 1 ≤ pos

/-- What DETECT reports of a length (R58, R120). The lengths of an `unknown` result are left out (U4). -/
def Detection.WF (d : Detection) : Prop :=
  (d.version = .unknown ∧ d.isValid = false) ∨
  (d.version = .v1 ∧ d.isValid = true ∧ d.hasCrc = false ∧ d.crcLen = 0 ∧
    (d.mainLen = 4 ∨ d.mainLen = 8 ∨ d.mainLen = 12 ∨ d.mainLen = 16)) ∨
  (d.version = .v2 ∧ d.isValid = true ∧ d.hasCrc = true ∧ d.crcLen = 16 ∧ 4 ≤ d.mainLen ∧ d.mainLen % 4 = 0)

/-- A response that the block can give: symbols only in a ciphertext (R59, R127), plaintext claimed only as R132
says, a score that agrees with its issue bits (R155), an error with its payload (R171). -/
def Response.WF (c : Config) : Response → Prop
  | .value _ => True
  | .symbols out => ∀ code ∈ out, isSymbol code = true ∧ c.charFits code = true
  | .bytes _ => True
  | .decoded out verified version =>
    (version = .empty ∧ out = [] ∧ verified = false) ∨
    (version = .v1 ∧ verified = false ∧ 1 ≤ out.length ∧ out.length ≤ 4 ∧ wellFormedUtf8 c out = true) ∨
    (version = .v2 ∧ verified = true ∧ 1 ≤ out.length ∧ wellFormedUtf8 c out = true)
  | .detected d => d.WF
  | .validated v => v.WF c
  | .scored quality issues =>
    quality.toNat + 20 * (issues.getLsbD 0).toNat + 10 * (issues.getLsbD 1).toNat
      + 15 * (issues.getLsbD 2).toNat = 100
  | .error e => e.WF c

/-- The invariant of the block: parameters in their ranges (R6), TABLE as built (R13, R205), `LANES` lanes (R21),
the active lane one of them, and every outstanding response one the block can give. -/
structure State.WF (s : State) : Prop where
  config : s.config.wf = true
  table : s.table = buildTable
  lanes : s.lanes.length = s.config.lanes
  active : s.active < s.lanes.length
  responses : ∀ l ∈ s.lanes, ∀ r ∈ l.responses, r.WF s.config

/-- An event the outside world may present: a lane that exists and a record it can carry. -/
def HostEvent.Acceptable (s : State) : HostEvent → Prop
  | .issue k r => k < s.lanes.length ∧ r.Presentable s.config
  | .take k => k < s.lanes.length
  | .reset => True

end Sys2Proof.Machine
end

