-- ==== Sys2Proof/Safety/Reference.lean ====
section
/-! DEFINITION. The rules of the spec in the closed forms the claims compare the machine with. Nothing here is
used by the machine. -/

namespace Sys2Proof.Reference

open Sys2Proof.Machine

/-- The listing of R81, entries 0 to 63. -/
def listedTable0 : List Word :=
  [ 0x00000000, 0x77073096, 0xEE0E612C, 0x990951BA, 0x076DC419, 0x706AF48F, 0xE963A535, 0x9E6495A3,
    0x0EDB8832, 0x79DCB8A4, 0xE0D5E91E, 0x97D2D988, 0x09B64C2B, 0x7EB17CBD, 0xE7B82D07, 0x90BF1D91,
    0x1DB71064, 0x6AB020F2, 0xF3B97148, 0x84BE41DE, 0x1ADAD47D, 0x6DDDE4EB, 0xF4D4B551, 0x83D385C7,
    0x136C9856, 0x646BA8C0, 0xFD62F97A, 0x8A65C9EC, 0x14015C4F, 0x63066CD9, 0xFA0F3D63, 0x8D080DF5,
    0x3B6E20C8, 0x4C69105E, 0xD56041E4, 0xA2677172, 0x3C03E4D1, 0x4B04D447, 0xD20D85FD, 0xA50AB56B,
    0x35B5A8FA, 0x42B2986C, 0xDBBBC9D6, 0xACBCF940, 0x32D86CE3, 0x45DF5C75, 0xDCD60DCF, 0xABD13D59,
    0x26D930AC, 0x51DE003A, 0xC8D75180, 0xBFD06116, 0x21B4F4B5, 0x56B3C423, 0xCFBA9599, 0xB8BDA50F,
    0x2802B89E, 0x5F058808, 0xC60CD9B2, 0xB10BE924, 0x2F6F7C87, 0x58684C11, 0xC1611DAB, 0xB6662D3D ]

/-- The listing of R81, entries 64 to 127. -/
def listedTable1 : List Word :=
  [ 0x76DC4190, 0x01DB7106, 0x98D220BC, 0xEFD5102A, 0x71B18589, 0x06B6B51F, 0x9FBFE4A5, 0xE8B8D433,
    0x7807C9A2, 0x0F00F934, 0x9609A88E, 0xE10E9818, 0x7F6A0DBB, 0x086D3D2D, 0x91646C97, 0xE6635C01,
    0x6B6B51F4, 0x1C6C6162, 0x856530D8, 0xF262004E, 0x6C0695ED, 0x1B01A57B, 0x8208F4C1, 0xF50FC457,
    0x65B0D9C6, 0x12B7E950, 0x8BBEB8EA, 0xFCB9887C, 0x62DD1DDF, 0x15DA2D49, 0x8CD37CF3, 0xFBD44C65,
    0x4DB26158, 0x3AB551CE, 0xA3BC0074, 0xD4BB30E2, 0x4ADFA541, 0x3DD895D7, 0xA4D1C46D, 0xD3D6F4FB,
    0x4369E96A, 0x346ED9FC, 0xAD678846, 0xDA60B8D0, 0x44042D73, 0x33031DE5, 0xAA0A4C5F, 0xDD0D7CC9,
    0x5005713C, 0x270241AA, 0xBE0B1010, 0xC90C2086, 0x5768B525, 0x206F85B3, 0xB966D409, 0xCE61E49F,
    0x5EDEF90E, 0x29D9C998, 0xB0D09822, 0xC7D7A8B4, 0x59B33D17, 0x2EB40D81, 0xB7BD5C3B, 0xC0BA6CAD ]

/-- The listing of R81, entries 128 to 191. -/
def listedTable2 : List Word :=
  [ 0xEDB88320, 0x9ABFB3B6, 0x03B6E20C, 0x74B1D29A, 0xEAD54739, 0x9DD277AF, 0x04DB2615, 0x73DC1683,
    0xE3630B12, 0x94643B84, 0x0D6D6A3E, 0x7A6A5AA8, 0xE40ECF0B, 0x9309FF9D, 0x0A00AE27, 0x7D079EB1,
    0xF00F9344, 0x8708A3D2, 0x1E01F268, 0x6906C2FE, 0xF762575D, 0x806567CB, 0x196C3671, 0x6E6B06E7,
    0xFED41B76, 0x89D32BE0, 0x10DA7A5A, 0x67DD4ACC, 0xF9B9DF6F, 0x8EBEEFF9, 0x17B7BE43, 0x60B08ED5,
    0xD6D6A3E8, 0xA1D1937E, 0x38D8C2C4, 0x4FDFF252, 0xD1BB67F1, 0xA6BC5767, 0x3FB506DD, 0x48B2364B,
    0xD80D2BDA, 0xAF0A1B4C, 0x36034AF6, 0x41047A60, 0xDF60EFC3, 0xA867DF55, 0x316E8EEF, 0x4669BE79,
    0xCB61B38C, 0xBC66831A, 0x256FD2A0, 0x5268E236, 0xCC0C7795, 0xBB0B4703, 0x220216B9, 0x5505262F,
    0xC5BA3BBE, 0xB2BD0B28, 0x2BB45A92, 0x5CB36A04, 0xC2D7FFA7, 0xB5D0CF31, 0x2CD99E8B, 0x5BDEAE1D ]

/-- The listing of R81, entries 192 to 255. -/
def listedTable3 : List Word :=
  [ 0x9B64C2B0, 0xEC63F226, 0x756AA39C, 0x026D930A, 0x9C0906A9, 0xEB0E363F, 0x72076785, 0x05005713,
    0x95BF4A82, 0xE2B87A14, 0x7BB12BAE, 0x0CB61B38, 0x92D28E9B, 0xE5D5BE0D, 0x7CDCEFB7, 0x0BDBDF21,
    0x86D3D2D4, 0xF1D4E242, 0x68DDB3F8, 0x1FDA836E, 0x81BE16CD, 0xF6B9265B, 0x6FB077E1, 0x18B74777,
    0x88085AE6, 0xFF0F6A70, 0x66063BCA, 0x11010B5C, 0x8F659EFF, 0xF862AE69, 0x616BFFD3, 0x166CCF45,
    0xA00AE278, 0xD70DD2EE, 0x4E048354, 0x3903B3C2, 0xA7672661, 0xD06016F7, 0x4969474D, 0x3E6E77DB,
    0xAED16A4A, 0xD9D65ADC, 0x40DF0B66, 0x37D83BF0, 0xA9BCAE53, 0xDEBB9EC5, 0x47B2CF7F, 0x30B5FFE9,
    0xBDBDF21C, 0xCABAC28A, 0x53B39330, 0x24B4A3A6, 0xBAD03605, 0xCDD70693, 0x54DE5729, 0x23D967BF,
    0xB3667A2E, 0xC4614AB8, 0x5D681B02, 0x2A6F2B94, 0xB40BBE37, 0xC30C8EA1, 0x5A05DF1B, 0x2D02EF8D ]

/-- The 256 values of TABLE as R81 lists them. -/
def listedTable : List Word := listedTable0 ++ listedTable1 ++ listedTable2 ++ listedTable3

/-- The code of the symbol of group `g mod 4` (R51). -/
def codeOf (g : Nat) : Nat := [0x4F, 0x30, 0x49, 0x6C].getD (g % 4) 0

/-- One of the four symbols (R50, R102). -/
def IsSym (c : Nat) : Prop := c = 0x4F ∨ c = 0x30 ∨ c = 0x49 ∨ c = 0x6C

/-- The number of the group of a symbol code (R51, R101). -/
def groupNumber (c : Nat) : Nat := if c = 0x4F then 0 else if c = 0x30 then 1 else if c = 0x49 then 2 else 3

/-- `c` is the leftmost element of `s` that is no symbol, at the 1-based position `p` (R31, R174). -/
def FirstBad (s : List Nat) (c p : Nat) : Prop :=
  ∃ pre post, s = pre ++ c :: post ∧ (∀ x ∈ pre, IsSym x) ∧ ¬ IsSym c ∧ p = pre.length + 1

/-- Four symbols of one byte, bits 7:6 first (R53). -/
def byteSymbols (v : Byte) : List Nat :=
  [codeOf (v.toNat / 64), codeOf (v.toNat / 16), codeOf (v.toNat / 4), codeOf v.toNat]

/-- The main cipher of a byte sequence (R54, R108). -/
def packed (bytes : List Byte) : List Nat := bytes.flatMap byteSymbols

/-- The bytes of a symbol sequence in the closed form of R60 and R109: whole bytes only. -/
def unpacked (s : List Nat) : List Byte :=
  (List.range (s.length / 4)).map (fun k =>
    BitVec.ofNat 8 (64 * groupNumber (s.getD (4 * k) 0) + 16 * groupNumber (s.getD (4 * k + 1) 0)
      + 4 * groupNumber (s.getD (4 * k + 2) 0) + groupNumber (s.getD (4 * k + 3) 0)))

/-- The checksum block, symbol by symbol (R35, R56): symbol `j` carries bits `31 − 2j` and `30 − 2j`. -/
def block (c : Word) : List Nat := (List.range 16).map (fun j => codeOf (c.toNat / 2 ^ (30 - 2 * j)))

/-- The value 16 symbols carry (R60, R88). -/
def blockValue (s : List Nat) : Word :=
  BitVec.ofNat 32 ((List.range 16).map (fun j => groupNumber (s.getD j 0) * 2 ^ (30 - 2 * j))).sum

/-- CRCREG through the loop of R84, from `reg`: the index is `(CRCREG XOR byte) mod 256`. -/
def register (t : CrcTable) (reg : Word) : List Byte → Word
  | [] => reg
  | b :: rest =>
    register t (t[(reg.toNat ^^^ b.toNat) % 256]'(Nat.mod_lt _ (by decide)) ^^^ BitVec.ofNat 32 (reg.toNat / 256)) rest

/-- `Crc(B)` by R84. -/
def checksum (t : CrcTable) (bytes : List Byte) : Word := ~~~ (register t 0xFFFFFFFF#32 bytes)

/-- One bit of the reflected CRC-32 without a table: the bit is compared with the one shifted out (R80, R91). -/
def serialBit (reg : Word) (bit : Bool) : Word :=
  if (reg.getLsbD 0 != bit) = true then (reg >>> 1) ^^^ 0xEDB88320#32 else reg >>> 1

/-- One byte, least significant bit first. -/
def serialByte (reg : Word) (b : Byte) : Word := (List.range 8).foldl (fun r i => serialBit r (b.getLsbD i)) reg

/-- The standard CRC-32 computed bit by bit (R91). -/
def serialCrc (bytes : List Byte) : Word := ~~~ (bytes.foldl serialByte 0xFFFFFFFF#32)

/-- `p[i]` of R156 as an exact rational: 0 for an empty input. -/
def percentage (s : List Nat) (g : Nat) : ℚ :=
  if s.length = 0 then 0 else 100 * (s.count (codeOf g) : ℚ) / (s.length : ℚ)

/-- The mean of the four percentages (R157). -/
def meanPercentage (s : List Nat) : ℚ := (percentage s 0 + percentage s 1 + percentage s 2 + percentage s 3) / 4

/-- The variance of R157 with the given divisor, before any rewriting to integers. -/
def variance (divisor : Nat) (s : List Nat) : ℚ :=
  ((percentage s 0 - meanPercentage s) ^ 2 + (percentage s 1 - meanPercentage s) ^ 2
    + (percentage s 2 - meanPercentage s) ^ 2 + (percentage s 3 - meanPercentage s) ^ 2) / (divisor : ℚ)

/-- Four identical consecutive elements (R158). -/
def HasRun (s : List Nat) : Prop := ∃ pre c post, s = pre ++ c :: c :: c :: c :: post

/-- Index `j` starts a window ABAB with A ≠ B (R158). -/
def AltWindowAt (s : List Nat) (j : Nat) : Prop :=
  ∃ pre a b post, s = pre ++ a :: b :: a :: b :: post ∧ a ≠ b ∧ pre.length = j

/-- The number of element indices that lie in some alternating window (R158). -/
noncomputable def coveredCount (s : List Nat) : Nat :=
  Set.ncard (fun i => ∃ j, AltWindowAt s j ∧ j ≤ i ∧ i ≤ j + 3)

/-- `AltPairCoverage` under the parameter (R6, R158). -/
noncomputable def coverage (c : Config) (s : List Nat) : Nat :=
  match c.altPairs with
  | .spec => coveredCount s
  | .other n => Config.otherAltPairCoverage n s

/-- The bytes of one row of the table of R133. -/
def Utf8Row (x : List Byte) : Prop :=
  (∃ a, x = [a] ∧ a.toNat ≤ 0x7F) ∨
  (∃ a b, x = [a, b] ∧ 0xC2 ≤ a.toNat ∧ a.toNat ≤ 0xDF ∧ 0x80 ≤ b.toNat ∧ b.toNat ≤ 0xBF) ∨
  (∃ a b c, x = [a, b, c] ∧ 0x80 ≤ c.toNat ∧ c.toNat ≤ 0xBF ∧
    ((a.toNat = 0xE0 ∧ 0xA0 ≤ b.toNat ∧ b.toNat ≤ 0xBF) ∨
     (0xE1 ≤ a.toNat ∧ a.toNat ≤ 0xEC ∧ 0x80 ≤ b.toNat ∧ b.toNat ≤ 0xBF) ∨
     (a.toNat = 0xED ∧ 0x80 ≤ b.toNat ∧ b.toNat ≤ 0x9F) ∨
     (0xEE ≤ a.toNat ∧ a.toNat ≤ 0xEF ∧ 0x80 ≤ b.toNat ∧ b.toNat ≤ 0xBF))) ∨
  (∃ a b c d, x = [a, b, c, d] ∧ 0x80 ≤ c.toNat ∧ c.toNat ≤ 0xBF ∧ 0x80 ≤ d.toNat ∧ d.toNat ≤ 0xBF ∧
    ((a.toNat = 0xF0 ∧ 0x90 ≤ b.toNat ∧ b.toNat ≤ 0xBF) ∨
     (0xF1 ≤ a.toNat ∧ a.toNat ≤ 0xF3 ∧ 0x80 ≤ b.toNat ∧ b.toNat ≤ 0xBF) ∨
     (a.toNat = 0xF4 ∧ 0x80 ≤ b.toNat ∧ b.toNat ≤ 0x8F)))

/-- The version code of R67. -/
def versionNumber : Version → BitVec 2
  | .unknown => 0
  | .v1 => 1
  | .v2 => 2
  | .empty => 3

/-- The names of the fields of R17 that a response has, besides `status`. -/
def fieldsPresent (f : Fields) : List String :=
  (if f.value.isSome then ["value"] else []) ++
  (if f.outLen.isSome then ["out_len"] else []) ++
  (if f.outBytes.isSome then ["OUT bytes"] else []) ++
  (if f.outChars.isSome then ["OUT characters"] else []) ++
  (if f.verified.isSome then ["verified"] else []) ++
  (if f.version.isSome then ["version"] else []) ++
  (if f.hasCrc.isSome then ["has_crc"] else []) ++
  (if f.mainLen.isSome then ["main_len"] else []) ++
  (if f.crcLen.isSome then ["crc_len"] else []) ++
  (if f.isValid.isSome then ["is_valid"] else []) ++
  (if f.reason.isSome then ["reason"] else []) ++
  (if f.errChar.isSome then ["err_char"] else []) ++
  (if f.errPos.isSome then ["err_pos"] else []) ++
  (if f.expected.isSome then ["expected"] else []) ++
  (if f.actual.isSome then ["actual"] else []) ++
  (if f.quality.isSome then ["quality"] else []) ++
  (if f.issues.isSome then ["issues"] else [])

/-- The rows of R18 for an operation: each status it can return and the fields present with it. -/
def responseRows : Instr → List (BitVec 4 × List String)
  | .crcTblrd _ => [(0, ["value"]), (7, [])]
  | .crcCalc _ => [(0, ["value"])]
  | .crcTosym _ => [(0, ["out_len", "OUT characters"])]
  | .crcFromsym _ => [(0, ["value"]), (6, []), (3, ["err_char", "err_pos"])]
  | .symPack _ => [(0, ["out_len", "OUT characters"])]
  | .symUnpack _ => [(0, ["out_len", "OUT bytes"]), (3, ["err_char", "err_pos"])]
  | .encode _ => [(0, ["out_len", "OUT characters"])]
  | .decode _ =>
    [(0, ["out_len", "OUT bytes", "verified", "version"]), (2, []), (3, ["err_char", "err_pos"]),
      (4, ["out_len", "OUT bytes"]), (5, ["expected", "actual"])]
  | .detect _ => [(0, ["version", "has_crc", "main_len", "crc_len", "is_valid"])]
  | .validate _ => [(0, ["is_valid", "reason"]), (0, ["is_valid", "reason", "err_char", "err_pos"])]
  | .quality _ => [(0, ["quality", "issues"])]

/-- What the record of R17 holds for a response, field by field, with the codes of R66 to R68 as numbers. Which
fields are present at all is `responseRows`. -/
def Carries (r : Response) (f : Fields) : Prop :=
  match r with
  | .value v => f.status = 0 ∧ f.value = some v
  | .symbols out => f.status = 0 ∧ f.outChars = some out ∧ f.outLen = some out.length
  | .bytes out => f.status = 0 ∧ f.outBytes = some out ∧ f.outLen = some out.length
  | .decoded out verified version =>
    f.status = 0 ∧ f.outBytes = some out ∧ f.outLen = some out.length ∧ f.verified = some verified ∧
      f.version = some (versionNumber version)
  | .detected d =>
    f.status = 0 ∧ f.version = some (versionNumber d.version) ∧ f.hasCrc = some d.hasCrc ∧
      f.mainLen = some d.mainLen ∧ f.crcLen = some d.crcLen ∧ f.isValid = some d.isValid
  | .validated .valid => f.status = 0 ∧ f.isValid = some true ∧ f.reason = some 0
  | .validated .empty => f.status = 0 ∧ f.isValid = some false ∧ f.reason = some 1
  | .validated (.badChar c p) =>
    f.status = 0 ∧ f.isValid = some false ∧ f.reason = some 2 ∧ f.errChar = some c ∧ f.errPos = some p
  | .scored quality issues => f.status = 0 ∧ f.quality = some quality ∧ f.issues = some issues
  | .error .encoding => f.status = 1
  | .error .format => f.status = 2
  | .error (.validation c p) => f.status = 3 ∧ f.errChar = some c ∧ f.errPos = some p
  | .error (.decoding out) => f.status = 4 ∧ f.outBytes = some out ∧ f.outLen = some out.length
  | .error (.integrity expected actual) => f.status = 5 ∧ f.expected = some expected ∧ f.actual = some actual
  | .error .length => f.status = 6
  | .error .badCommand => f.status = 7

end Sys2Proof.Reference
end

