-- ==== Sys2Proof/Certificates/Slice0/Obligations.lean ====
section
/-! DEFINITION. The statements for the provers. Each says which rule of spec/ it formalises; the closed forms it
compares the machine with are those of Safety/Reference.lean. -/

open Sys2Proof Sys2Proof.Machine Sys2Proof.Reference

/-! ### Reset, TABLE, the invariant -/

/-- The listing and the three checks that 40_checksum_engine.md infers from R80 (its own inference, under R81): the
table R80 builds holds those values. -/
def Obligations.TableHoldsTheListedValues : Prop :=
  buildTable.toList = listedTable ∧
  buildTable.toList.foldl (fun x y => x ^^^ y) 0x00000000#32 = 0x00000000#32 ∧
  buildTable.toList.foldl (fun x y => x + y) 0x00000000#32 = 0xFFFFFF80#32 ∧
  ∀ a b : BitVec 8, tableRead buildTable (a ^^^ b) = tableRead buildTable a ^^^ tableRead buildTable b

/-- R22, R200, R201 for every choice of the parameters, and the defaults of R6 at `reset`. The values are those of
the spec's own listing (inferred from R80). That the list of events to come is empty is the model's choice (log
entry 3). -/
def Obligations.ResetBuildsTableAndIdlesEveryLane : Prop :=
  (∀ c : Config,
    (State.resetWith c).table.toList = listedTable ∧ (State.resetWith c).config = c ∧
    (State.resetWith c).lanes.length = c.lanes ∧
    (∀ l ∈ (State.resetWith c).lanes, l.responses = []) ∧ (State.resetWith c).host = []) ∧
  core.reset = State.resetWith
    { charW := 8, maxLen := none, lanes := 1, utf8 := .spec, varDivisor := .population, altPairs := .spec }

/-- The invariant holds right after reset. -/
def Obligations.ResetMeetsTheInvariant : Prop := ∀ c : Config, c.wf = true → (State.resetWith c).WF

/-- R13, R17, R18, R21, R205: from every state that meets the invariant, a step gives a state that meets it. -/
def Obligations.EveryStepKeepsTheInvariant : Prop := ∀ s t : State, s.WF → step s = .next t → t.WF

/-- R13, R205: no step but reset writes TABLE, and none changes the parameters. -/
def Obligations.NoStepButResetWritesTheTable : Prop :=
  ∀ s t : State, step s = .next t → t.config = s.config ∧
    (t.table = s.table ∨ ∃ rest, s.host = .reset :: rest ∧ t.table = buildTable)

/-- R200, R202: reset as an event leaves the reset state, whatever went before. The events still to come are the
host's (the model's choice, log entries 3 and 5). -/
def Obligations.ResetEventForgetsEverything : Prop :=
  ∀ (s : State) (rest : List HostEvent), s.host = .reset :: rest →
    step s = .next { State.resetWith s.config with host := rest }

/-! ### Command decode and the step -/

/-- R61 to R63: the decoder reads back every operation that a record can carry, operands and all. -/
def Obligations.DecodingAnEncodedOperationGivesIt : Prop :=
  ∀ (c : Config) (i : Instr), i.wf c = true → decode c (encode i) = .ok i

/-- R16, R62, R63: what is decoded is well formed, has the record's command word, and has the operand that its
format reads. -/
def Obligations.DecodedOperandsAreTheRecords : Prop :=
  ∀ (c : Config) (r : Command) (i : Instr), decode c r = .ok i →
    i.wf c = true ∧ (encode i).cmd = r.cmd ∧
    match i with
    | .crcTblrd index => index = r.arg
    | .crcTosym checksum => checksum = r.arg
    | .crcCalc bytes => bytes.map BitVec.toNat = r.input
    | .symPack bytes => bytes.map BitVec.toNat = r.input
    | .encode bytes => bytes.map BitVec.toNat = r.input
    | .crcFromsym chars => chars = r.input
    | .symUnpack chars => chars = r.input
    | .decode chars => chars = r.input
    | .detect chars => chars = r.input
    | .validate chars => chars = r.input
    | .quality chars => chars = r.input

/-- R61, R62, R64: the eleven words of the opcode table, and some reserved ones. -/
def Obligations.WordsOfTheOpcodeTable : Prop :=
  decodeTableWord 8 0x01 = some (.crcTblrd 0#32) ∧ decodeTableWord 8 0x02 = some (.crcCalc []) ∧
  decodeTableWord 8 0x03 = some (.crcTosym 0#32) ∧ decodeTableWord 8 0x04 = some (.crcFromsym []) ∧
  decodeTableWord 8 0x05 = some (.symPack []) ∧ decodeTableWord 8 0x06 = some (.symUnpack []) ∧
  decodeTableWord 8 0x07 = some (.encode []) ∧ decodeTableWord 8 0x08 = some (.decode []) ∧
  decodeTableWord 8 0x09 = some (.detect []) ∧ decodeTableWord 8 0x0A = some (.validate []) ∧
  decodeTableWord 8 0x0B = some (.quality []) ∧
  decodeTableWord 8 0x00 = none ∧ decodeTableWord 8 0x0C = none ∧ decodeTableWord 8 0x0F = none ∧
  decodeTableWord 8 0x17 = none ∧ decodeTableWord 8 0xFF = none

/-- The next event issues a record that decodes to `i`: the step is `exec` of `i` on the named lane, the event
taken off the list of events to come (R5, R11, R41; the list of events is the model's own, log entry 3). -/
def Obligations.StepRunsTheDecodedOperation : Prop :=
  ∀ (s : State) (k : Nat) (r : Command) (rest : List HostEvent) (i : Instr),
    s.host = .issue k r :: rest → k < s.lanes.length → decode s.config r = .ok i →
    step s = exec i { s with host := rest, active := k }

/-- R64: the reserved words are 0x00 and 0x0C to 0xFF, every other word is one of the eleven; a reserved word is
answered with BAD_COMMAND and no other field, and nothing else changes. That acceptance (R65, R207) is tested first
for reserved words too is read from the spec by inference (log entry 9). That the lane keeps its older responses
before the new one is the model's choice (log entry 4). -/
def Obligations.ReservedWordsAnswerBadCommand : Prop :=
  (∀ (c : Config) (r : Command), decode c r = .error .reserved ↔
    (∀ m, c.maxLen = some m → r.inLen ≤ m) ∧ (r.cmd.toNat = 0 ∨ 12 ≤ r.cmd.toNat)) ∧
  (∀ (s : State) (k : Nat) (r : Command) (rest : List HostEvent) (l : Lane),
    s.host = .issue k r :: rest → s.lanes[k]? = some l →
    (∀ m, s.config.maxLen = some m → r.inLen ≤ m) → (r.cmd.toNat = 0 ∨ 12 ≤ r.cmd.toNat) →
    ∃ t, step s = .next t ∧ t.table = s.table ∧ t.config = s.config ∧ t.host = rest ∧
      t.lanes[k]? = some { responses := l.responses ++ [.error .badCommand] } ∧
      ∀ j, j ≠ k → t.lanes[j]? = s.lanes[j]?) ∧
  (Response.error .badCommand).fields = { status := 7#4 }

/-- R207: a command longer than `MAX_LEN` has no step and no response, and with `MAX_LEN` unbounded this never
happens. -/
def Obligations.TooLongInputHasNoStep : Prop :=
  (∀ (s : State) (k : Nat) (r : Command) (rest : List HostEvent) (m : Nat),
    s.host = .issue k r :: rest → k < s.lanes.length → s.config.maxLen = some m → m < r.inLen →
    step s = .refused .inputTooLong) ∧
  (∀ s : State, s.config.maxLen = none → step s ≠ .refused .inputTooLong)

/-- The model's choice for what no host can present (log entry 8; R16, R172): an element that does not have the
operation's element width. -/
def Obligations.UnpresentableElementsAreRefused : Prop :=
  ∀ (s : State) (k : Nat) (r : Command) (rest : List HostEvent),
    s.host = .issue k r :: rest → k < s.lanes.length → (∀ m, s.config.maxLen = some m → r.inLen ≤ m) →
    (((r.cmd = 0x02#8 ∨ r.cmd = 0x05#8 ∨ r.cmd = 0x07#8) ∧ ∃ v ∈ r.input, 256 ≤ v) ∨
     ((r.cmd = 0x04#8 ∨ r.cmd = 0x06#8 ∨ r.cmd = 0x08#8 ∨ r.cmd = 0x09#8 ∨ r.cmd = 0x0A#8 ∨ r.cmd = 0x0B#8) ∧
       ∃ v ∈ r.input, 2 ^ s.config.charW ≤ v)) →
    step s = .refused .malformedInput

/-- The model's choice for an event on a lane the block does not have (log entry 10; R21). -/
def Obligations.EventsOnMissingLanesAreRefused : Prop :=
  ∀ (s : State) (k : Nat) (r : Command) (rest : List HostEvent), s.lanes.length ≤ k →
    (s.host = .issue k r :: rest ∨ s.host = .take k :: rest) → step s = .refused .noSuchLane

/-- R136, R180, R184: every event the outside world may present has a step; none ends in a fault or a refusal.
(What R184 says is the spec's own inference.) -/
def Obligations.AcceptableEventsAlwaysStep : Prop :=
  ∀ (s : State) (e : HostEvent) (rest : List HostEvent), s.host = e :: rest → e.Acceptable s →
    ∃ t, step s = .next t ∧ t.host = rest

/-- Two choices of the model. Taking is one event that empties a whole lane and changes nothing else (log entry 4;
R204 says only that the host may discard a response). A step with no event changes nothing (log entry 3). -/
def Obligations.TakingEmptiesOneLaneAndIdleStepsChangeNothing : Prop :=
  (∀ (s : State) (k : Nat) (rest : List HostEvent), s.host = .take k :: rest → k < s.lanes.length →
    ∃ t, step s = .next t ∧ t.config = s.config ∧ t.table = s.table ∧ t.host = rest ∧ t.active = s.active ∧
      t.lanes[k]? = some { responses := [] } ∧ ∀ j, j ≠ k → t.lanes[j]? = s.lanes[j]?) ∧
  (∀ s : State, s.host = [] → step s = .next s)

/-! ### Purity, lanes, errors -/

/-- The frame of all eleven operations (R17, R19, R40): parameters, TABLE, the events to come, the active lane
and every other lane are unchanged; the active lane gains exactly one response. That it keeps its older ones before
it is the model's choice (log entry 4). -/
def Obligations.OperationsChangeOnlyTheirOwnLane : Prop :=
  ∀ (i : Instr) (s t : State), exec i s = .next t →
    t.config = s.config ∧ t.table = s.table ∧ t.host = s.host ∧ t.active = s.active ∧
    t.lanes.length = s.lanes.length ∧ (∀ k, k ≠ s.active → t.lanes[k]? = s.lanes[k]?) ∧
    ∀ l, s.lanes[s.active]? = some l →
      ∃ r, t.lanes[s.active]? = some { responses := l.responses ++ [r] }

/-- R40, for all eleven operations: the response is a function of the operands, TABLE and the parameters alone,
whatever lane runs the operation and whatever has happened before. Every operation completes. -/
def Obligations.ResponsesDependOnCommandAndTableOnly : Prop :=
  ∀ (i : Instr) (s s' : State), s.config = s'.config → s.table = s'.table →
    ∃ r, exec i s = .next (s.respond r) ∧ exec i s' = .next (s'.respond r)

/-- R40, R43 (its conclusion is the spec's own inference): two commands on different lanes in either order leave the same lanes, TABLE, parameters and events, and
if one order can run so can the other. -/
def Obligations.LanesDoNotInterfere : Prop :=
  ∀ (s u t : State) (a b : Nat) (x y : Command) (rest : List HostEvent), a ≠ b →
    s.host = .issue a x :: .issue b y :: rest → step s = .next u → step u = .next t →
    ∃ u' t', step { s with host := .issue b y :: .issue a x :: rest } = .next u' ∧ step u' = .next t' ∧
      t'.lanes = t.lanes ∧ t'.table = t.table ∧ t'.config = t.config ∧ t'.host = t.host

/-- R43.4, R182: a command gets the response it would get without the command before it, whatever that was and
whether or not it ended in an error. That a lane keeps its older responses before the new one is the model's choice
(log entry 4). -/
def Obligations.EarlierCommandsLeaveNothingBehind : Prop :=
  ∀ (s u t : State) (k k' : Nat) (x y : Command) (rest : List HostEvent) (l l' : Lane),
    s.host = .issue k x :: .issue k' y :: rest → step s = .next u → step u = .next t →
    s.lanes[k']? = some l → u.lanes[k']? = some l' →
    ∃ t' r, step { s with host := .issue k' y :: rest } = .next t' ∧
      t.lanes[k']? = some { responses := l'.responses ++ [r] } ∧
      t'.lanes[k']? = some { responses := l.responses ++ [r] }

/-- R18: every operation completes with one of the rows the rule lists for it, exactly those fields present;
`out_len` is the length of `OUT`, 16 for CRC.TOSYM, and VALIDATE gives a character and position for BAD_CHAR only.
So status 1 and 8 to 15 never occur (R172). R17, R66 to R68: the record of every response, those the step gives to
reserved words among them, holds in each field the value the response carries, codes as numbers. -/
def Obligations.ResponsesHaveTheListedShapes : Prop :=
  (∀ r : Response, Carries r r.fields ∧ r.status = r.fields.status) ∧
  ∀ (i : Instr) (s : State), ∃ r, exec i s = .next (s.respond r) ∧
    (r.fields.status, fieldsPresent r.fields) ∈ responseRows i ∧
    (∀ out, r.fields.outBytes = some out → r.fields.outLen = some out.length) ∧
    (∀ out, r.fields.outChars = some out → r.fields.outLen = some out.length) ∧
    (∀ c, i = .crcTosym c → r.fields.outLen = some 16) ∧
    (∀ chars, i = .validate chars → (r.fields.errChar.isSome = true ↔ r.fields.reason = some 2#2))

/-- R180: the seven operations that always return `OK`, and CRC.TBLRD up to 255. -/
def Obligations.SomeOperationsCannotFail : Prop :=
  ∀ (s : State) (bytes : List Byte) (chars : List CharCode) (w : Word),
    ∀ i ∈ [Instr.crcCalc bytes, .crcTosym w, .symPack bytes, .encode bytes, .detect chars, .validate chars,
        .quality chars] ++ (if w.toNat ≤ 255 then [.crcTblrd w] else []),
      ∃ r, exec i s = .next (s.respond r) ∧ r.fields.status = 0#4

/-- R66 to R68: the numbers of the codes. -/
def Obligations.CodesOfStatusVersionAndReason : Prop :=
  OpError.encoding.status = 1#4 ∧ OpError.format.status = 2#4 ∧
  (∀ c p, (OpError.validation c p).status = 3#4) ∧ (∀ b, (OpError.decoding b).status = 4#4) ∧
  (∀ e a, (OpError.integrity e a).status = 5#4) ∧ OpError.length.status = 6#4 ∧
  OpError.badCommand.status = 7#4 ∧
  Version.unknown.code = 0#2 ∧ Version.v1.code = 1#2 ∧ Version.v2.code = 2#2 ∧ Version.empty.code = 3#2 ∧
  Verdict.valid.reasonCode = 0#2 ∧ Verdict.empty.reasonCode = 1#2 ∧
  (∀ c p, (Verdict.badChar c p).reasonCode = 2#2)

/-! ### The Checksum Engine -/

/-- R82: CRC.TBLRD. -/
def Obligations.CrcTblrdReadsOneEntry : Prop :=
  (∀ (s : State) (arg : Word), 255 < arg.toNat → exec (.crcTblrd arg) s = .next (s.respond (.error .badCommand))) ∧
  (∀ (s : State) (arg : Word) (h : arg.toNat < 256),
    exec (.crcTblrd arg) s = .next (s.respond (.value s.table[arg.toNat]))) ∧
  (∀ s : State, s.table = buildTable →
    exec (.crcTblrd 0x00#32) s = .next (s.respond (.value 0x00000000#32)) ∧
    exec (.crcTblrd 0xFF#32) s = .next (s.respond (.value 0x2D02EF8D#32)) ∧
    exec (.crcTblrd 0x100#32) s = .next (s.respond (.error .badCommand)) ∧
    exec (.crcTblrd 0x80#32) s = .next (s.respond (.value 0xEDB88320#32))) ∧
  (∀ (c : Config) (arg : Word) (input : List Nat), c.accepts input.length = true →
    decode c { cmd := 0x01#8, arg := arg, input := input } = .ok (.crcTblrd arg))

/-- R84: CRC.CALC folds every byte in order, whatever TABLE holds. -/
def Obligations.CrcCalcFoldsEveryByte : Prop :=
  (∀ (s : State) (bytes : List Byte), exec (.crcCalc bytes) s = .next (s.respond (.value (checksum s.table bytes)))) ∧
  (∀ (c : Config) (arg : Word) (bytes : List Byte), c.accepts bytes.length = true →
    decode c { cmd := 0x02#8, arg := arg, input := bytes.map BitVec.toNat } = .ok (.crcCalc bytes))

/-- The corner cases and the example of CRC.CALC that the spec infers from R84 (its own inference, under R85). -/
def Obligations.CrcCalcCornerValues : Prop :=
  (∀ s : State, exec (.crcCalc []) s = .next (s.respond (.value 0x00000000#32))) ∧
  (∀ (s : State) (b : Byte), s.table = buildTable →
    exec (.crcCalc [b]) s = .next (s.respond (.value (tableRead buildTable (0xFF#8 ^^^ b) ^^^ 0xFF000000#32)))) ∧
  (∀ s : State, s.table = buildTable →
    exec (.crcCalc [0xFF#8]) s = .next (s.respond (.value 0xFF000000#32)) ∧
    exec (.crcCalc [0x00#8]) s = .next (s.respond (.value 0xD202EF8D#32)) ∧
    exec (.crcCalc [72#8, 105#8]) s = .next (s.respond (.value 0x4D170E0E#32)))

/-- R80, R84: with the built table, CRC.CALC gives the standard CRC-32 computed bit by bit, on every byte sequence;
in particular the standard check value. What the standard is, the spec takes from general knowledge (K1, K4). -/
def Obligations.CrcCalcIsTheBitSerialCrc : Prop :=
  ∀ s : State, s.table = buildTable →
    (∀ bytes : List Byte, exec (.crcCalc bytes) s = .next (s.respond (.value (serialCrc bytes)))) ∧
    exec (.crcCalc [0x31, 0x32, 0x33, 0x34, 0x35, 0x36, 0x37, 0x38, 0x39]) s
      = .next (s.respond (.value 0xCBF43926#32))

/-- R86, R87: CRC.TOSYM; that the block is the main cipher of the four bytes, and the corner values, are the spec's
own inference. -/
def Obligations.CrcTosymLaysOutTheChecksum : Prop :=
  (∀ (s : State) (c : Word), exec (.crcTosym c) s = .next (s.respond (.symbols (block c)))) ∧
  (∀ c : Word, (block c).length = 16 ∧ (∀ x ∈ block c, IsSym x) ∧ block c =
    packed [c.extractLsb' 24 8, c.extractLsb' 16 8, c.extractLsb' 8 8, c.extractLsb' 0 8]) ∧
  (∀ s : State,
    exec (.crcTosym 0x00000000#32) s = .next (s.respond (.symbols (List.replicate 16 0x4F))) ∧
    exec (.crcTosym 0xFFFFFFFF#32) s = .next (s.respond (.symbols (List.replicate 16 0x6C))) ∧
    exec (.crcTosym 0x1B1B1B1B#32) s = .next (s.respond (.symbols
      [0x4F, 0x30, 0x49, 0x6C, 0x4F, 0x30, 0x49, 0x6C, 0x4F, 0x30, 0x49, 0x6C, 0x4F, 0x30, 0x49, 0x6C])) ∧
    exec (.crcTosym 0x80000001#32) s = .next (s.respond (.symbols ([0x49] ++ List.replicate 14 0x4F ++ [0x30]))) ∧
    exec (.crcTosym 0x4D170E0E#32) s = .next (s.respond (.symbols
      [0x30, 0x4F, 0x6C, 0x30, 0x4F, 0x30, 0x30, 0x6C, 0x4F, 0x4F, 0x6C, 0x49, 0x4F, 0x4F, 0x6C, 0x49]))) ∧
  (∀ (c : Config) (arg : Word) (input : List Nat), c.accepts input.length = true →
    decode c { cmd := 0x03#8, arg := arg, input := input } = .ok (.crcTosym arg))

/-- R88, R89: CRC.FROMSYM; the length comes before the characters, the leftmost character is reported. -/
def Obligations.CrcFromsymReadsSixteenSymbols : Prop :=
  (∀ (s : State) (chars : List CharCode), chars.length ≠ 16 →
    exec (.crcFromsym chars) s = .next (s.respond (.error .length))) ∧
  (∀ (s : State) (chars : List CharCode) (c p : Nat), chars.length = 16 → FirstBad chars c p →
    exec (.crcFromsym chars) s = .next (s.respond (.error (.validation c p))) ∧ 1 ≤ p ∧ p ≤ 16) ∧
  (∀ (s : State) (chars : List CharCode), chars.length = 16 → (∀ c ∈ chars, IsSym c) →
    exec (.crcFromsym chars) s = .next (s.respond (.value (blockValue chars)))) ∧
  (∀ s : State,
    exec (.crcFromsym (List.replicate 15 0x4F ++ [0x58])) s = .next (s.respond (.error (.validation 0x58 16))) ∧
    exec (.crcFromsym [0x30, 0x4F, 0x6C, 0x30, 0x4F, 0x30, 0x30, 0x6C, 0x4F, 0x4F, 0x6C, 0x49, 0x4F, 0x4F, 0x6C, 0x49]) s
      = .next (s.respond (.value 0x4D170E0E#32))) ∧
  (∀ (c : Config) (arg : Word) (chars : List CharCode), (Instr.crcFromsym chars).wf c = true →
    decode c { cmd := 0x04#8, arg := arg, input := chars } = .ok (.crcFromsym chars))

/-- ToSymbols and FromSymbols are inverse to each other: the spec's own inference from R86 and R88 (under R90). -/
def Obligations.ToSymbolsAndFromSymbolsAreInverse : Prop :=
  (∀ c : Word, fromSymbols (toSymbols c) = .ok c) ∧
  (∀ s : List CharCode, s.length = 16 → (∀ c ∈ s, IsSym c) → ∃ v, fromSymbols s = .ok v ∧ toSymbols v = s)

/-- Two messages of any length that differ in exactly one byte have different checksums: what the spec takes from
general knowledge (K6) as the reason for its sensitivity property (R93). -/
def Obligations.OneChangedByteChangesTheChecksum : Prop :=
  ∀ (xs ys : List Byte) (b b' : Byte), b ≠ b' → crc buildTable (xs ++ b :: ys) ≠ crc buildTable (xs ++ b' :: ys)

/-! ### The mapper and the packer -/

/-- R51, R100 to R102: the four codes, the bijection, and that every other code is no symbol. -/
def Obligations.SymbolMappingIsABijection : Prop :=
  symOf 0#2 = 0x4F ∧ symOf 1#2 = 0x30 ∧ symOf 2#2 = 0x49 ∧ symOf 3#2 = 0x6C ∧
  (∀ g : Group, groupOf (symOf g) = some g) ∧
  (∀ (c : CharCode) (g : Group), groupOf c = some g → symOf g = c) ∧
  (∀ c : CharCode, isSymbol c = true ↔ IsSym c) ∧
  (∀ c : CharCode, (groupOf c).isSome = true ↔ IsSym c)

/-- R103 to R107: each packer function, bit by bit, on every bit string. (That padding never changes whole bytes,
which R104 infers, is no part of it.) -/
def Obligations.PackerFunctionsBitByBit : Prop :=
  (∀ bytes : List Byte, (bytesToBits bytes).length = 8 * bytes.length ∧
    ∀ k m, m ≤ 7 → (bytesToBits bytes)[8 * k + m]? = (bytes[k]?).map (fun v => v.getLsbD (7 - m))) ∧
  (∀ b : List Bool, (b.length % 2 = 0 → padEven b = b) ∧ (b.length % 2 = 1 → padEven b = b ++ [false])) ∧
  (∀ (b : List Bool) (m : Nat), b.length = 2 * m → (bitsToGroups b).length = m ∧
    ∀ j hi lo, b[2 * j]? = some hi → b[2 * j + 1]? = some lo →
      (bitsToGroups b)[j]? = some (BitVec.ofNat 2 (2 * hi.toNat + lo.toNat))) ∧
  (∀ gs : List Group, (groupsToBits gs).length = 2 * gs.length ∧
    ∀ j : Nat, (groupsToBits gs)[2 * j]? = (gs[j]?).map (fun g => g.getLsbD 1) ∧
      (groupsToBits gs)[2 * j + 1]? = (gs[j]?).map (fun g => g.getLsbD 0)) ∧
  (∀ b : List Bool, (bitsToBytes b).length = b.length / 8 ∧
    ∀ k m v, m ≤ 7 → (bitsToBytes b)[k]? = some v → b[8 * k + m]? = some (v.getLsbD (7 - m)))

/-- R108, R110: SYM.PACK; the closed form and the corner values are the spec's own inference. -/
def Obligations.SymPackLaysOutEveryByte : Prop :=
  (∀ (s : State) (bytes : List Byte), exec (.symPack bytes) s = .next (s.respond (.symbols (packed bytes)))) ∧
  (∀ bytes : List Byte, (packed bytes).length = 4 * bytes.length) ∧
  (∀ xs ys : List Byte, pack (xs ++ ys) = pack xs ++ pack ys) ∧
  (∀ s : State,
    exec (.symPack []) s = .next (s.respond (.symbols [])) ∧
    exec (.symPack [0x00#8]) s = .next (s.respond (.symbols [0x4F, 0x4F, 0x4F, 0x4F])) ∧
    exec (.symPack [0xFF#8]) s = .next (s.respond (.symbols [0x6C, 0x6C, 0x6C, 0x6C])) ∧
    exec (.symPack [0x1B#8]) s = .next (s.respond (.symbols [0x4F, 0x30, 0x49, 0x6C])) ∧
    exec (.symPack [0xE4#8]) s = .next (s.respond (.symbols [0x6C, 0x49, 0x30, 0x4F])) ∧
    exec (.symPack [72#8, 105#8]) s
      = .next (s.respond (.symbols [0x30, 0x4F, 0x49, 0x4F, 0x30, 0x49, 0x49, 0x30]))) ∧
  (∀ (c : Config) (arg : Word) (bytes : List Byte), c.accepts bytes.length = true →
    decode c { cmd := 0x05#8, arg := arg, input := bytes.map BitVec.toNat } = .ok (.symPack bytes))

/-- R111, with the bytes assembled as R60 says: SYM.UNPACK; incomplete trailing bytes are dropped, every character is checked. -/
def Obligations.SymUnpackRecoversWholeBytes : Prop :=
  (∀ (s : State) (chars : List CharCode), (∀ c ∈ chars, IsSym c) →
    exec (.symUnpack chars) s = .next (s.respond (.bytes (unpacked chars)))) ∧
  (∀ (s : State) (chars : List CharCode) (c p : Nat), FirstBad chars c p →
    exec (.symUnpack chars) s = .next (s.respond (.error (.validation c p)))) ∧
  (∀ chars : List CharCode, (unpacked chars).length = chars.length / 4) ∧
  (∀ s : State,
    exec (.symUnpack []) s = .next (s.respond (.bytes [])) ∧
    exec (.symUnpack [0x30, 0x4F, 0x49, 0x4F, 0x30, 0x49]) s = .next (s.respond (.bytes [72#8])) ∧
    exec (.symUnpack [0x30, 0x4F, 0x49, 0x4F, 0x30, 0x49, 0x49, 0x30]) s = .next (s.respond (.bytes [72#8, 105#8]))) ∧
  (∀ (c : Config) (arg : Word) (chars : List CharCode), (Instr.symUnpack chars).wf c = true →
    decode c { cmd := 0x06#8, arg := arg, input := chars } = .ok (.symUnpack chars))

/-- Unpack undoes Pack, and Pack undoes Unpack up to the symbols dropped: the spec's own inference from R100 to
R108 (under R109). -/
def Obligations.PackAndUnpackAreInverse : Prop :=
  (∀ bytes : List Byte, unpack (pack bytes) = bytes) ∧
  (∀ s : List CharCode, (∀ c ∈ s, IsSym c) → pack (unpack s) = s.take (4 * (s.length / 4)))

/-- A change of one symbol changes exactly one 2-bit lane of exactly one byte: the spec's own inference from R108
and R109 (under R112). -/
def Obligations.OneSymbolIsOneLaneOfOneByte : Prop :=
  ∀ (s : State) (chars : List CharCode) (j : Nat) (c : CharCode), (∀ x ∈ chars, IsSym x) → IsSym c →
    j < 4 * (chars.length / 4) → chars[j]? ≠ some c →
    ∃ (out : List Byte) (change : Byte), change ≠ 0#8 ∧
      change &&& ~~~ (BitVec.ofNat 8 (3 * 4 ^ (3 - j % 4))) = 0#8 ∧
      exec (.symUnpack chars) s = .next (s.respond (.bytes out)) ∧
      exec (.symUnpack (chars.set j c)) s = .next (s.respond (.bytes (out.modify (j / 4) (fun v => v ^^^ change))))

/-! ### The Symbol Codec -/

/-- R120: DETECT by length alone, also in the form the spec infers (under R58). The fields `has_crc`, `main_len` and
`crc_len` of an unknown result are left out (U4, log entry 6). -/
def Obligations.DetectTellsTheFormatByLength : Prop :=
  ∀ (s : State) (chars : List CharCode), ∃ d, exec (.detect chars) s = .next (s.respond (.detected d)) ∧
    (d.version = .v2 ↔ 16 < chars.length ∧ (chars.length - 16) % 4 = 0) ∧
    (d.version = .v1 ↔ ¬ (16 < chars.length ∧ (chars.length - 16) % 4 = 0) ∧ chars.length % 4 = 0 ∧ 0 < chars.length) ∧
    (d.version = .v2 ↔ 20 ≤ chars.length ∧ chars.length % 4 = 0) ∧
    (d.version = .v1 ↔ chars.length = 4 ∨ chars.length = 8 ∨ chars.length = 12 ∨ chars.length = 16) ∧
    (d.version = .unknown ↔ chars.length % 4 ≠ 0 ∨ chars.length = 0) ∧
    (d.isValid = true ↔ d.version ≠ .unknown) ∧
    (d.version = .v2 → d.hasCrc = true ∧ d.mainLen = chars.length - 16 ∧ d.crcLen = 16) ∧
    (d.version = .v1 → d.hasCrc = false ∧ d.mainLen = chars.length ∧ d.crcLen = 0)

/-- R71, R125: ENCODE of a non-empty sequence is SYM.PACK followed by CRC.TOSYM of CRC.CALC; of the empty one it
is empty. -/
def Obligations.EncodeIsPackThenChecksumBlock : Prop :=
  (∀ (s : State) (bytes : List Byte), bytes ≠ [] →
    ∃ main c blk, exec (.symPack bytes) s = .next (s.respond (.symbols main)) ∧
      exec (.crcCalc bytes) s = .next (s.respond (.value c)) ∧
      exec (.crcTosym c) s = .next (s.respond (.symbols blk)) ∧
      exec (.encode bytes) s = .next (s.respond (.symbols (main ++ blk)))) ∧
  (∀ s : State, exec (.encode []) s = .next (s.respond (.symbols []))) ∧
  (∀ s : State, s.table = buildTable → exec (.encode [72#8, 105#8]) s = .next (s.respond (.symbols
    [0x30, 0x4F, 0x49, 0x4F, 0x30, 0x49, 0x49, 0x30, 0x30, 0x4F, 0x6C, 0x30, 0x4F, 0x30, 0x30, 0x6C,
      0x4F, 0x4F, 0x6C, 0x49, 0x4F, 0x4F, 0x6C, 0x49])))

/-- R59: the length laws and the alphabet closure. -/
def Obligations.EncodeObeysItsLengthAndAlphabetLaws : Prop :=
  ∀ (s : State) (bytes : List Byte), ∃ out, exec (.encode bytes) s = .next (s.respond (.symbols out)) ∧
    (bytes = [] → out.length = 0) ∧ (bytes ≠ [] → out.length = 4 * bytes.length + 16) ∧ (∀ c ∈ out, IsSym c)

/-- R130, R178: DECODE test by test, in the order that decides which error is reported. -/
def Obligations.DecodeFollowsItsSteps : Prop :=
  (∀ s : State, exec (.decode []) s = .next (s.respond (.decoded [] false .empty))) ∧
  (∀ (s : State) (chars : List CharCode), chars.length % 4 ≠ 0 →
    exec (.decode chars) s = .next (s.respond (.error .format))) ∧
  (∀ (s : State) (chars : List CharCode) (c p : Nat), chars.length % 4 = 0 → FirstBad chars c p →
    exec (.decode chars) s = .next (s.respond (.error (.validation c p)))) ∧
  (∀ (s : State) (chars : List CharCode), chars.length % 4 = 0 → 0 < chars.length → chars.length ≤ 16 →
    (∀ c ∈ chars, IsSym c) →
    exec (.decode chars) s = .next (s.respond (
      if wellFormedUtf8 s.config (unpacked chars) = true then .decoded (unpacked chars) false .v1
      else .error (.decoding (unpacked chars))))) ∧
  (∀ (s : State) (chars main blk : List CharCode), chars = main ++ blk → blk.length = 16 → main ≠ [] →
    main.length % 4 = 0 → (∀ c ∈ chars, IsSym c) →
    exec (.decode chars) s = .next (s.respond (
      if wellFormedUtf8 s.config (unpacked main) = true then
        if checksum s.table (unpacked main) = blockValue blk then .decoded (unpacked main) true .v2
        else .error (.integrity (blockValue blk) (checksum s.table (unpacked main)))
      else .error (.decoding (unpacked main)))))

/-- What `verified = 1` and `verified = 0` mean: the spec's own inference from R130 (under R132). -/
def Obligations.VerifiedMeansTheChecksumMatched : Prop :=
  ∀ (s : State) (chars : List CharCode) (out : List Byte) (version : Version), s.active < s.lanes.length →
    (exec (.decode chars) s = .next (s.respond (.decoded out true version)) ↔
      ∃ main blk, chars = main ++ blk ∧ blk.length = 16 ∧ main ≠ [] ∧ main.length % 4 = 0 ∧ (∀ c ∈ chars, IsSym c) ∧
        out = unpacked main ∧ wellFormedUtf8 s.config out = true ∧ checksum s.table out = blockValue blk ∧
        version = .v2) ∧
    (exec (.decode chars) s = .next (s.respond (.decoded out false version)) ↔
      (chars = [] ∧ out = [] ∧ version = .empty) ∨
      ((detect chars.length).version = .v1 ∧ (∀ c ∈ chars, IsSym c) ∧ out = unpacked chars ∧
        wellFormedUtf8 s.config out = true ∧ version = .v1))

/-- Decoding what ENCODE gives: the round trip, as the spec infers it from R125 and R130 (under R134 and R126). -/
def Obligations.DecodingAnEncodedPlaintextGivesIt : Prop :=
  ∀ (s : State) (bytes : List Byte), ∃ out, exec (.encode bytes) s = .next (s.respond (.symbols out)) ∧
    (bytes = [] → exec (.decode out) s = .next (s.respond (.decoded [] false .empty))) ∧
    (bytes ≠ [] → wellFormedUtf8 s.config bytes = true →
      exec (.decode out) s = .next (s.respond (.decoded bytes true .v2))) ∧
    (bytes ≠ [] → wellFormedUtf8 s.config bytes = false →
      exec (.decode out) s = .next (s.respond (.error (.decoding bytes))))

/-- v1 ciphertexts of 1 to 4 bytes decode as v1; a longer one is read as v2, its last four bytes taken as a
big-endian checksum: the spec's own inference from R120 and R130 (under R135). -/
def Obligations.LongV1CiphertextsAreReadAsV2 : Prop :=
  (∀ (s : State) (bytes : List Byte), 1 ≤ bytes.length → bytes.length ≤ 4 →
    exec (.decode (packed bytes)) s = .next (s.respond (
      if wellFormedUtf8 s.config bytes = true then .decoded bytes false .v1 else .error (.decoding bytes)))) ∧
  (∀ (s : State) (front : List Byte) (a b c d : Byte), front ≠ [] →
    exec (.decode (packed (front ++ [a, b, c, d]))) s = .next (s.respond (
      if wellFormedUtf8 s.config front = true then
        if checksum s.table front = a ++ b ++ c ++ d then .decoded front true .v2
        else .error (.integrity (a ++ b ++ c ++ d) (checksum s.table front))
      else .error (.decoding front))))

/-- R93: replacing any one symbol of the main cipher of a v2 ciphertext by another symbol makes DECODE fail, with
INTEGRITY_ERROR or DECODING_ERROR. The reason, that a CRC-32 detects every such change, the spec takes from general
knowledge (K6). -/
def Obligations.OneWrongMainSymbolIsDetected : Prop :=
  ∀ (s : State) (bytes : List Byte), s.table = buildTable → bytes ≠ [] →
    ∃ out, exec (.encode bytes) s = .next (s.respond (.symbols out)) ∧
      ∀ (j : Nat) (c : CharCode), j < 4 * bytes.length → IsSym c → out[j]? ≠ some c →
        (∃ b, exec (.decode (out.set j c)) s = .next (s.respond (.error (.decoding b)))) ∨
        (∃ expected actual, expected ≠ actual ∧
          exec (.decode (out.set j c)) s = .next (s.respond (.error (.integrity expected actual))))

/-- R176: replacing any one symbol of the checksum block changes `expected` and not `actual`. -/
def Obligations.OneWrongChecksumSymbolChangesExpected : Prop :=
  ∀ (s : State) (bytes : List Byte), bytes ≠ [] → wellFormedUtf8 s.config bytes = true →
    ∃ out, exec (.encode bytes) s = .next (s.respond (.symbols out)) ∧
      ∀ (j : Nat) (c : CharCode), 4 * bytes.length ≤ j → j < 4 * bytes.length + 16 → IsSym c → out[j]? ≠ some c →
        ∃ expected, expected ≠ checksum s.table bytes ∧
          exec (.decode (out.set j c)) s
            = .next (s.respond (.error (.integrity expected (checksum s.table bytes))))

/-- The test DECODE calls, in every configuration whose `WellFormedUtf8` is the spec's default, accepts exactly the
concatenations of rows of the table of R133, which the spec takes from general knowledge (K2). -/
def Obligations.Utf8TestAcceptsConcatenationsOfRows : Prop :=
  ∀ (c : Config) (bytes : List Byte), c.utf8 = .spec → (wellFormedUtf8 c bytes = true ↔
    ∃ rows : List (List Byte), bytes = rows.flatten ∧ ∀ row ∈ rows, Utf8Row row)

/-! ### The Format Validator -/

/-- R150: VALIDATE reports the empty input, the leftmost character that is no symbol with its 1-based position,
or that all is valid. -/
def Obligations.ValidateReportsTheFirstBadCharacter : Prop :=
  (∀ s : State, exec (.validate []) s = .next (s.respond (.validated .empty))) ∧
  (∀ (s : State) (chars : List CharCode), chars ≠ [] → (∀ c ∈ chars, IsSym c) →
    exec (.validate chars) s = .next (s.respond (.validated .valid))) ∧
  (∀ (s : State) (chars : List CharCode) (c p : Nat), FirstBad chars c p →
    exec (.validate chars) s = .next (s.respond (.validated (.badChar c p)))) ∧
  Verdict.valid.isValid = true ∧ Verdict.empty.isValid = false ∧ ∀ c p, (Verdict.badChar c p).isValid = false

/-- R155 to R158, for every value of the parameters: bit 0 is the rational variance test, bit 1 the length test,
bit 2 the pattern test, and the score is 100 less the deductions. -/
def Obligations.QualityAppliesTheThreeTests : Prop :=
  ∀ (s : State) (chars : List CharCode), ∃ q issues,
    exec (.quality chars) s = .next (s.respond (.scored q issues)) ∧
    (issues.getLsbD 0 = true ↔ 300 < variance s.config.varDivisor.value chars) ∧
    (issues.getLsbD 1 = true ↔ chars.length < 8) ∧
    (issues.getLsbD 2 = true ↔
      HasRun chars ∨ (chars ≠ [] ∧ 30 * chars.length < 100 * coverage s.config chars)) ∧
    q.toNat + 20 * (issues.getLsbD 0).toNat + 10 * (issues.getLsbD 1).toNat + 15 * (issues.getLsbD 2).toNat = 100

/-- The scores that occur: the spec's own inference from the deductions of R155. -/
def Obligations.QualityScoresAreTheEightListed : Prop :=
  ∀ (s : State) (chars : List CharCode), ∃ q issues,
    exec (.quality chars) s = .next (s.respond (.scored q issues)) ∧
    q.toNat ∈ [100, 90, 85, 80, 75, 70, 65, 55]
end

