-- ==== Sys2Proof/Laws/Checksum.lean ====
section
/-! SUPPORT. The small laws of the checksum fold (R84). -/

namespace Sys2Proof.Machine

@[simp] theorem crcFold_nil (t : CrcTable) (reg : Word) : crcFold t reg [] = reg := rfl

@[simp] theorem crcFold_cons (t : CrcTable) (reg : Word) (b : Byte) (bytes : List Byte) :
    crcFold t reg (b :: bytes) = crcFold t (crcUpdate t reg b) bytes := rfl

theorem crcFold_append (t : CrcTable) (reg : Word) (xs ys : List Byte) :
    crcFold t reg (xs ++ ys) = crcFold t (crcFold t reg xs) ys := by
  simp [crcFold]

/-- The index of a fold step is the low byte of the register XOR the byte (R84). -/
theorem crcUpdate_index (reg : Word) (b : Byte) :
    ((reg ^^^ b.setWidth 32) &&& 0xFF#32).setWidth 8 = reg.setWidth 8 ^^^ b := by
  ext i hi
  interval_cases i <;> simp

end Sys2Proof.Machine
end

