-- ==== Sys2Proof/Laws/Decode.lean ====
section
/-! SUPPORT. What command decode can do, said once. -/

namespace Sys2Proof

theorem readBytes_ok_iff (input : List Nat) (bytes : List Byte) :
    readBytes input = .ok bytes ↔ (∀ v ∈ input, v < 256) ∧ bytes = input.map (BitVec.ofNat 8) := by
  have hb : (input.all fun v => decide (v < 256)) = true ↔ ∀ v ∈ input, v < 256 := by simp
  unfold readBytes
  split
  · next h => simp only [Except.ok.injEq, eq_comm, and_iff_right (hb.1 h)]
  · next h => exact ⟨nofun, fun k => absurd (hb.2 k.1) h⟩

theorem readChars_ok_iff (c : Config) (input : List Nat) (chars : List CharCode) :
    readChars c input = .ok chars ↔ (∀ v ∈ input, v < 2 ^ c.charW) ∧ chars = input := by
  have hb : input.all c.charFits = true ↔ ∀ v ∈ input, v < 2 ^ c.charW := by simp [Config.charFits]
  unfold readChars
  split
  · next h => simp only [Except.ok.injEq, eq_comm, and_iff_right (hb.1 h)]
  · next h => exact ⟨nofun, fun k => absurd (hb.2 k.1) h⟩

theorem readBytes_error (input : List Nat) (e : DecodeError) (h : readBytes input = .error e) :
    e = .malformedInput := by
  unfold readBytes at h
  split at h <;> simp_all

theorem readChars_error (c : Config) (input : List Nat) (e : DecodeError) (h : readChars c input = .error e) :
    e = .malformedInput := by
  unfold readChars at h
  split at h <;> simp_all

theorem Config.accepts_iff (c : Config) (n : Nat) :
    c.accepts n = true ↔ ∀ m, c.maxLen = some m → n ≤ m := by
  unfold Config.accepts
  cases h : c.maxLen <;> simp

/-- A record that is accepted is decoded by its command word. -/
theorem decode_of_accepted (c : Config) (r : Command) (h : c.accepts r.inLen = true) :
    decode c r = decodeAccepted c r := by
  simp [decode, h]

/-- A record that is too long is refused whatever its command word. -/
theorem decode_of_tooLong (c : Config) (r : Command) (h : c.accepts r.inLen = false) :
    decode c r = .error .inputTooLong := by
  simp [decode, h]

end Sys2Proof
end

