-- ==== Sys2Proof/Laws/State.lean ====
section
/-! SUPPORT. One lemma per field per update of the state, so that no later proof unfolds a record update. -/

namespace Sys2Proof.Machine

@[simp] theorem Lane.deliver_responses (r : Response) (l : Lane) :
    (l.deliver r).responses = l.responses ++ [r] := rfl

@[simp] theorem Lane.idle_responses : Lane.idle.responses = [] := rfl

@[simp] theorem State.respond_config (s : State) (r : Response) : (s.respond r).config = s.config := rfl
@[simp] theorem State.respond_table (s : State) (r : Response) : (s.respond r).table = s.table := rfl
@[simp] theorem State.respond_host (s : State) (r : Response) : (s.respond r).host = s.host := rfl
@[simp] theorem State.respond_active (s : State) (r : Response) : (s.respond r).active = s.active := rfl
@[simp] theorem State.respond_lanes (s : State) (r : Response) :
    (s.respond r).lanes = s.lanes.modify s.active (Lane.deliver r) := rfl

@[simp] theorem State.raise_eq_respond (s : State) (e : OpError) : s.raise e = s.respond (.error e) := rfl

@[simp] theorem State.finish_ok (s : State) (r : Response) : s.finish (.ok r) = .next (s.respond r) := rfl
@[simp] theorem State.finish_error (s : State) (e : OpError) :
    s.finish (.error e) = .next (s.respond (.error e)) := rfl

@[simp] theorem State.onLane_config (s : State) (k : Nat) : (s.onLane k).config = s.config := rfl
@[simp] theorem State.onLane_table (s : State) (k : Nat) : (s.onLane k).table = s.table := rfl
@[simp] theorem State.onLane_lanes (s : State) (k : Nat) : (s.onLane k).lanes = s.lanes := rfl
@[simp] theorem State.onLane_host (s : State) (k : Nat) : (s.onLane k).host = s.host := rfl
@[simp] theorem State.onLane_active (s : State) (k : Nat) : (s.onLane k).active = k := rfl

@[simp] theorem State.take_config (s : State) (k : Nat) : (s.take k).config = s.config := rfl
@[simp] theorem State.take_table (s : State) (k : Nat) : (s.take k).table = s.table := rfl
@[simp] theorem State.take_lanes (s : State) (k : Nat) :
    (s.take k).lanes = s.lanes.modify k (fun _ => Lane.idle) := rfl
@[simp] theorem State.take_host (s : State) (k : Nat) : (s.take k).host = s.host := rfl
@[simp] theorem State.take_active (s : State) (k : Nat) : (s.take k).active = s.active := rfl

@[simp] theorem State.resetWith_config (c : Config) : (State.resetWith c).config = c := rfl
@[simp] theorem State.resetWith_table (c : Config) : (State.resetWith c).table = buildTable := rfl
@[simp] theorem State.resetWith_lanes (c : Config) :
    (State.resetWith c).lanes = List.replicate c.lanes Lane.idle := rfl
@[simp] theorem State.resetWith_host (c : Config) : (State.resetWith c).host = [] := rfl
@[simp] theorem State.resetWith_active (c : Config) : (State.resetWith c).active = 0 := rfl

@[simp] theorem State.resetEvent_config (s : State) : s.resetEvent.config = s.config := rfl
@[simp] theorem State.resetEvent_table (s : State) : s.resetEvent.table = buildTable := rfl
@[simp] theorem State.resetEvent_lanes (s : State) :
    s.resetEvent.lanes = List.replicate s.config.lanes Lane.idle := rfl
@[simp] theorem State.resetEvent_host (s : State) : s.resetEvent.host = s.host := rfl
@[simp] theorem State.resetEvent_active (s : State) : s.resetEvent.active = 0 := rfl

@[simp] theorem State.present_config (s : State) (k : Nat) (r : Command) : (s.present k r).config = s.config := rfl
@[simp] theorem State.present_table (s : State) (k : Nat) (r : Command) : (s.present k r).table = s.table := rfl
@[simp] theorem State.present_lanes (s : State) (k : Nat) (r : Command) : (s.present k r).lanes = s.lanes := rfl
@[simp] theorem State.present_host (s : State) (k : Nat) (r : Command) :
    (s.present k r).host = .issue k r :: s.host := rfl
@[simp] theorem State.present_active (s : State) (k : Nat) (r : Command) : (s.present k r).active = s.active := rfl

/-- The active lane after a response: what it held, and the response after it. -/
theorem State.respond_lane_active (s : State) (r : Response) (l : Lane) (h : s.lanes[s.active]? = some l) :
    (s.respond r).lanes[s.active]? = some (l.deliver r) := by
  simp [h]

/-- Every other lane is as it was. -/
theorem State.respond_lane_other (s : State) (r : Response) (k : Nat) (h : k ≠ s.active) :
    (s.respond r).lanes[k]? = s.lanes[k]? := by
  simp [Ne.symm h]

/-- Two responses that leave one state behind are equal, where the active lane exists. -/
theorem State.respond_inj (s : State) (r r' : Response) (h : s.active < s.lanes.length)
    (e : s.respond r = s.respond r') : r = r' := by
  have e2 := congrArg (fun t => t.lanes[s.active]?) e
  simpa [h, Lane.deliver] using e2

end Sys2Proof.Machine
end

