-- ==== Sys2Proof/Laws/Exec.lean ====
section
/-! SUPPORT. What every operation does, said once: it answers one response, a function of the parameters, TABLE
and its operands, and nothing else. -/

namespace Sys2Proof.Machine

/-- The response an operation's result becomes. -/
def responseOf : Except OpError Response → Response
  | .ok r => r
  | .error e => .error e

theorem State.finish_eq (s : State) (x : Except OpError Response) :
    s.finish x = .next (s.respond (responseOf x)) := by
  cases x <;> rfl

/-- The response of each operation (R40). -/
def answer (c : Config) (t : CrcTable) : Instr → Response
  | .crcTblrd index =>
    if 255 < index.toNat then .error .badCommand else .value (tableRead t (index.extractLsb' 0 8))
  | .crcCalc bytes => .value (crc t bytes)
  | .crcTosym checksum => .symbols (toSymbols checksum)
  | .crcFromsym chars => responseOf ((fromSymbols chars).map .value)
  | .symPack bytes => .symbols (pack bytes)
  | .symUnpack chars => responseOf ((requireSymbols chars).map (fun _ => .bytes (unpack chars)))
  | .encode bytes => .symbols (ciphertextOf t bytes)
  | .decode chars => responseOf (decodeResult c t chars)
  | .detect chars => .detected (detect chars.length)
  | .validate chars => .validated (validate chars)
  | .quality chars =>
    .scored (score (distVarianceExceeds300 c chars) (decide (chars.length < 8)) (obviousPattern c chars))
      (issueBits (distVarianceExceeds300 c chars) (decide (chars.length < 8)) (obviousPattern c chars))

/-- Every operation answers a next state: the state with its one response delivered. -/
theorem exec_eq_respond (i : Instr) (s : State) :
    exec i s = .next (s.respond (answer s.config s.table i)) := by
  cases i with
  | crcTblrd index => simp only [exec, execCrcTblrd, answer]; split <;> rfl
  | crcCalc bytes => rfl
  | crcTosym checksum => rfl
  | crcFromsym chars => exact State.finish_eq _ _
  | symPack bytes => rfl
  | symUnpack chars => exact State.finish_eq _ _
  | encode bytes => rfl
  | decode chars => exact State.finish_eq _ _
  | detect chars => rfl
  | validate chars => rfl
  | quality chars => rfl

end Sys2Proof.Machine
end

