-- ==== Sys2Proof/Laws/PerInstr.lean ====
section
/-! SUPPORT. A statement about every operation as syntax, one lemma per constructor. -/

namespace Sys2Proof.Laws.CommandWord

/-- The command word of an operation has `[7:4] = 0` and selects one of the eleven (R61, R62). -/
def Statement (i : Instr) : Prop :=
  (encode i).cmd.extractLsb' 4 4 = 0#4 ∧ 1 ≤ (encode i).cmd.toNat ∧ (encode i).cmd.toNat ≤ 11

theorem crcTblrd (index : Word) : Statement (.crcTblrd index) := by simp [Statement, encode]
theorem crcCalc (bytes : List Byte) : Statement (.crcCalc bytes) := by simp [Statement, encode]
theorem crcTosym (checksum : Word) : Statement (.crcTosym checksum) := by simp [Statement, encode]
theorem crcFromsym (chars : List CharCode) : Statement (.crcFromsym chars) := by simp [Statement, encode]
theorem symPack (bytes : List Byte) : Statement (.symPack bytes) := by simp [Statement, encode]
theorem symUnpack (chars : List CharCode) : Statement (.symUnpack chars) := by simp [Statement, encode]
theorem encode (bytes : List Byte) : Statement (.encode bytes) := by simp [Statement, Sys2Proof.encode]
theorem decode (chars : List CharCode) : Statement (.decode chars) := by simp [Statement, Sys2Proof.encode]
theorem detect (chars : List CharCode) : Statement (.detect chars) := by simp [Statement, Sys2Proof.encode]
theorem validate (chars : List CharCode) : Statement (.validate chars) := by simp [Statement, Sys2Proof.encode]
theorem quality (chars : List CharCode) : Statement (.quality chars) := by simp [Statement, Sys2Proof.encode]

end Sys2Proof.Laws.CommandWord
end

