-- ==== Sys2Proof/Laws/Step.lean ====
section
/-! SUPPORT. What a step can do, said once. -/

namespace Sys2Proof.Machine

theorem step_idle (s : State) (h : s.host = []) : step s = .next s := by
  simp [step, nextEvent, h]

theorem step_event (s : State) (e : HostEvent) (rest : List HostEvent) (h : s.host = e :: rest) :
    step s = handle e { s with host := rest } := by
  simp [step, nextEvent, h]

/-- What performing a record gives, when it gives a next state: the answer of the operation it decodes to, or
BAD_COMMAND for a reserved word. -/
theorem perform_cases (r : Command) (s t : State) (h : perform r s = .next t) :
    (∃ i, decode s.config r = .ok i ∧ t = s.respond (answer s.config s.table i)) ∨
    (decode s.config r = .error .reserved ∧ t = s.respond (.error .badCommand)) := by
  unfold perform at h
  split at h
  · next i hi => exact .inl ⟨i, hi, by simpa [exec_eq_respond, eq_comm] using h⟩
  · next hi => exact .inr ⟨hi, by simpa [eq_comm] using h⟩
  · simp at h
  · simp at h

/-- What one event does, when it gives a next state. -/
theorem handle_cases (e : HostEvent) (s t : State) (h : handle e s = .next t) :
    (∃ k r, e = .issue k r ∧ k < s.lanes.length ∧ perform r (s.onLane k) = .next t) ∨
    (∃ k, e = .take k ∧ k < s.lanes.length ∧ t = s.take k) ∨
    (e = .reset ∧ t = s.resetEvent) := by
  cases e with
  | issue k r =>
    simp only [handle] at h
    split at h
    · exact .inl ⟨k, r, rfl, ‹_›, h⟩
    · simp at h
  | take k =>
    simp only [handle] at h
    split at h
    · exact .inr (.inl ⟨k, rfl, ‹_›, by simpa [eq_comm] using h⟩)
    · simp at h
  | reset => exact .inr (.inr ⟨rfl, by simpa [handle, eq_comm] using h⟩)

/-- What a step does, when it gives a next state: nothing without an event, else that event. -/
theorem step_cases (s t : State) (h : step s = .next t) :
    (s.host = [] ∧ t = s) ∨
    (∃ e rest, s.host = e :: rest ∧ handle e { s with host := rest } = .next t) := by
  cases hh : s.host with
  | nil => exact .inl ⟨rfl, by simpa [step_idle s hh, eq_comm] using h⟩
  | cons e rest => exact .inr ⟨e, rest, rfl, by rw [← step_event s e rest hh]; exact h⟩

end Sys2Proof.Machine
end

