-- ==== Sys2Proof/Laws/Symbols.lean ====
section
/-! SUPPORT. The small laws of the mapper and of the left-to-right symbol check. -/

namespace Sys2Proof.Machine

theorem isSymbol_iff (c : CharCode) : isSymbol c = true ↔ c = 0x4F ∨ c = 0x30 ∨ c = 0x49 ∨ c = 0x6C := by
  simp [isSymbol, or_assoc]

theorem groupOf_isSome (c : CharCode) : (groupOf c).isSome = isSymbol c := by
  unfold groupOf isSymbol
  split_ifs <;> simp_all

@[simp] theorem firstNonSymbol_nil (p : Nat) : firstNonSymbol p [] = none := rfl

@[simp] theorem firstNonSymbol_cons (p : Nat) (c : CharCode) (s : List CharCode) :
    firstNonSymbol p (c :: s) = if isSymbol c then firstNonSymbol (p + 1) s else some (c, p) := rfl

/-- The check finds nothing exactly in a sequence of symbols. -/
theorem firstNonSymbol_eq_none_iff (p : Nat) (s : List CharCode) :
    firstNonSymbol p s = none ↔ ∀ c ∈ s, isSymbol c = true := by
  induction s generalizing p with
  | nil => simp
  | cons c s ih => by_cases h : isSymbol c = true <;> simp [h, ih]

/-- What the check finds is the leftmost non-symbol, at its position. -/
theorem firstNonSymbol_eq_some_iff (p : Nat) (s : List CharCode) (c : CharCode) (q : Nat) :
    firstNonSymbol p s = some (c, q) ↔
      ∃ pre post, s = pre ++ c :: post ∧ (∀ x ∈ pre, isSymbol x = true) ∧ isSymbol c = false ∧
        q = p + pre.length := by
  induction s generalizing p with
  | nil => simp
  | cons x s ih =>
    by_cases h : isSymbol x = true
    · simp only [firstNonSymbol_cons, h, if_true, ih]
      constructor
      · rintro ⟨pre, post, rfl, hp, hc, rfl⟩
        exact ⟨x :: pre, post, rfl, by simpa [h] using hp, hc, by simp; omega⟩
      · rintro ⟨pre, post, hs, hp, hc, rfl⟩
        cases pre with
        | nil => simp at hs; simp_all
        | cons y pre =>
          simp at hs
          exact ⟨pre, post, hs.2, fun z hz => hp z (by simp [hz]), hc, by simp; omega⟩
    · simp only [firstNonSymbol_cons, h]
      constructor
      · intro hq
        simp at hq
        exact ⟨[], s, by simp [hq.1], by simp, by simpa [← hq.1] using h, by simp [hq.2]⟩
      · rintro ⟨pre, post, hs, hp, hc, rfl⟩
        cases pre with
        | nil => simp at hs; simp [hs.1]
        | cons y pre => simp at hs; exact absurd (hp y (by simp)) (by simpa [← hs.1] using h)

/-- The symbol check as it ends an operation. -/
theorem requireSymbols_cases (s : List CharCode) :
    (requireSymbols s = .ok () ∧ ∀ c ∈ s, isSymbol c = true) ∨
    (∃ c p, requireSymbols s = .error (.validation c p) ∧ firstNonSymbol 1 s = some (c, p)) := by
  unfold requireSymbols
  cases h : firstNonSymbol 1 s with
  | none => exact .inl ⟨rfl, (firstNonSymbol_eq_none_iff 1 s).1 h⟩
  | some x => exact .inr ⟨x.1, x.2, rfl, rfl⟩

@[simp] theorem groupsOf_nil : groupsOf [] = [] := rfl

/-- No symbol is left out (R101). -/
theorem groupsOf_length (s : List CharCode) (h : ∀ c ∈ s, isSymbol c = true) : (groupsOf s).length = s.length := by
  induction s with
  | nil => rfl
  | cons c s ih =>
    have hc := h c (by simp)
    rw [← groupOf_isSome, Option.isSome_iff_exists] at hc
    obtain ⟨g, hg⟩ := hc
    have := ih (fun x hx => h x (by simp [hx]))
    simp only [groupsOf] at this
    simp [groupsOf, hg, this]

@[simp] theorem byteBits_length (v : Byte) : (byteBits v).length = 8 := by simp [byteBits]

@[simp] theorem bytesToBits_nil : bytesToBits [] = [] := rfl

@[simp] theorem bytesToBits_cons (v : Byte) (b : List Byte) : bytesToBits (v :: b) = byteBits v ++ bytesToBits b := by
  simp [bytesToBits]

theorem bytesToBits_length (b : List Byte) : (bytesToBits b).length = 8 * b.length := by
  induction b with
  | nil => rfl
  | cons v b ih => simp [ih]; omega

/-- Padding never changes whole bytes (R104). -/
theorem padEven_bytesToBits (b : List Byte) : padEven (bytesToBits b) = bytesToBits b := by
  have h : 8 * b.length % 2 = 0 := by omega
  simp [padEven, bytesToBits_length, h]

end Sys2Proof.Machine
end

