-- ==== Sys2Proof/Laws/Utf8.lean ====
section
/-! SUPPORT. The small laws of the strict UTF-8 test (R133). -/

namespace Sys2Proof.Machine

/-- With the spec's default, the test DECODE calls is the scan by the table of R133. -/
theorem wellFormedUtf8_of_spec {c : Config} (h : c.utf8 = .spec) (bytes : List Byte) :
    wellFormedUtf8 c bytes = utf8WellFormed bytes := by
  simp [wellFormedUtf8, h]

@[simp] theorem utf8Scan_due (r : ByteRange) (more : List ByteRange) (b : Byte) (rest : List Byte) :
    utf8Scan (r :: more) (b :: rest) = (r.has b && utf8Scan more rest) := rfl

end Sys2Proof.Machine
end

