-- ==== Sys2Proof/Tests/Slice0.lean ====
section
/-! SUPPORT. Our own checks: ill-formed terms refused, command words written out from R61 and R62, vectors of
95_test_vectors.md (named in each comment), and a witness for the hypotheses of every obligation that has any. -/

namespace Sys2Proof.Tests

open Sys2Proof.Machine Sys2Proof.Reference

/-- The next state, if that is what the outcome is. -/
def nextOf : Host.Outcome State Fault Refusal → Option State
  | .next t => some t
  | .fault _ => none
  | .refused _ => none

theorem exists_next (o : Host.Outcome State Fault Refusal) (h : (nextOf o).isSome = true) : ∃ t, o = .next t := by
  cases o <;> simp_all [nextOf]

/-- The last response on a lane after an outcome. -/
def lastOn (k : Nat) (o : Host.Outcome State Fault Refusal) : Option Response :=
  (nextOf o).bind (fun t => (t.lanes[k]?).bind (fun l => l.responses.getLast?))

/-- The response to a command record issued right after reset. -/
def respond (cmd : BitVec 8) (arg : Word) (input : List Nat) : Option Response :=
  lastOn 0 (step (State.reset.present 0 { cmd := cmd, arg := arg, input := input }))

/-- Two lanes, `MAX_LEN` 4 and 16-bit characters. -/
def small : Config := { Config.spec with lanes := 2, maxLen := some 4, charW := 16 }

/-- `0OIO0II0`, the main cipher of OI1 §8.7 (E2). -/
def hiMain : List Nat := [0x30, 0x4F, 0x49, 0x4F, 0x30, 0x49, 0x49, 0x30]

/-- `0Ol0O00lOOlIOOlI`, its checksum block (V-SYM-3). -/
def hiBlock : List Nat := [0x30, 0x4F, 0x6C, 0x30, 0x4F, 0x30, 0x30, 0x6C, 0x4F, 0x4F, 0x6C, 0x49, 0x4F, 0x4F, 0x6C, 0x49]

/-! ### Ill-formed terms -/

theorem test_wf_refuses_charW_6 : Config.wf { Config.spec with charW := 6 } = false := by decide
theorem test_wf_refuses_no_lane : Config.wf { Config.spec with lanes := 0 } = false := by decide
theorem test_wf_refuses_too_long : ([.crcCalc [0, 0, 0, 0, 0], .symPack [0, 0, 0, 0, 0], .encode [0, 0, 0, 0, 0],
    .crcFromsym [0, 0, 0, 0, 0], .symUnpack [0, 0, 0, 0, 0], .decode [0, 0, 0, 0, 0], .detect [0, 0, 0, 0, 0],
    .validate [0, 0, 0, 0, 0], .quality [0, 0, 0, 0, 0]] : List Instr).all (fun i => !i.wf small) = true := by decide
theorem test_wf_refuses_wide_char : ([.crcFromsym [256], .symUnpack [256], .decode [256], .detect [256],
    .validate [256], .quality [256]] : List Instr).all (fun i => !i.wf Config.spec) = true := by decide
theorem test_wf_accepts_at_the_limits : ([.crcTblrd 0xFFFFFFFF, .crcTosym 0, .crcCalc [0, 0, 0, 0],
    .decode [0xFFFF, 0, 0, 0]] : List Instr).all (fun i => i.wf small) = true := by decide

/-! ### Command words, bits 7:4 zero and bits 3:0 as R62 lists them -/

theorem test_decode_tblrd : decode Config.spec { cmd := 0b00000001#8, arg := 0x80, input := [] } = .ok (.crcTblrd 0x80) := rfl
theorem test_decode_calc : decode Config.spec { cmd := 0b00000010#8, arg := 0, input := [72, 105] } = .ok (.crcCalc [72, 105]) := rfl
theorem test_decode_tosym : decode Config.spec { cmd := 0b00000011#8, arg := 0x4D170E0E, input := [] } = .ok (.crcTosym 0x4D170E0E) := rfl
theorem test_decode_fromsym : decode Config.spec { cmd := 0b00000100#8, arg := 0, input := [88] } = .ok (.crcFromsym [88]) := rfl
theorem test_decode_pack : decode Config.spec { cmd := 0b00000101#8, arg := 0, input := [255] } = .ok (.symPack [255]) := rfl
theorem test_decode_unpack : decode Config.spec { cmd := 0b00000110#8, arg := 0, input := [0x4F] } = .ok (.symUnpack [0x4F]) := rfl
theorem test_decode_encode : decode Config.spec { cmd := 0b00000111#8, arg := 0, input := [97] } = .ok (.encode [97]) := rfl
theorem test_decode_decode : decode Config.spec { cmd := 0b00001000#8, arg := 0, input := [0x30] } = .ok (.decode [0x30]) := rfl
theorem test_decode_detect : decode Config.spec { cmd := 0b00001001#8, arg := 0, input := [1, 2] } = .ok (.detect [1, 2]) := rfl
theorem test_decode_validate : decode Config.spec { cmd := 0b00001010#8, arg := 7, input := [] } = .ok (.validate []) := rfl
theorem test_decode_quality : decode Config.spec { cmd := 0b00001011#8, arg := 0, input := [0x6C] } = .ok (.quality [0x6C]) := rfl
/-- V-CMD-4: the low nibble is ENCODE's, the high nibble is not 0. -/
theorem test_decode_high_nibble : decode Config.spec { cmd := 0x17#8, arg := 0, input := [300] } = .error .reserved := rfl
/-- An element that is no byte; one that is no code of 8 bits; too many elements whatever the command word. -/
theorem test_decode_refusals :
    decode Config.spec { cmd := 0x07#8, arg := 0, input := [256] } = .error .malformedInput ∧
    decode Config.spec { cmd := 0x08#8, arg := 0, input := [256] } = .error .malformedInput ∧
    decode small { cmd := 0x08#8, arg := 0, input := [65535] } = .ok (.decode [65535]) ∧
    decode small { cmd := 0x00#8, arg := 0, input := [0, 0, 0, 0, 0] } = .error .inputTooLong := ⟨rfl, rfl, rfl, rfl⟩
theorem test_table_words : decodeTableWord 8 0x0B = some (.quality []) ∧ decodeTableWord 8 0x0C = none := by decide +kernel
/-- V-CMD-1, V-CMD-5. -/
theorem test_reserved_words : respond 0x00 0 [1] = some (.error .badCommand) ∧ respond 0xFF 0 [] = some (.error .badCommand) := by
  decide +kernel

/-! ### One step each, from 95_test_vectors.md -/

/-- V-TBL-6, V-TBL-9. -/
theorem test_tblrd : respond 0x01 0x9E [] = some (.value 0x17B7BE43) ∧ respond 0x01 256 [] = some (.error .badCommand) := by
  decide +kernel
/-- V-CRC-4, V-CRC-8. -/
theorem test_calc : respond 0x02 0 [0x61] = some (.value 0xE8B7BE43) ∧ respond 0x02 0 [0, 0, 0, 0] = some (.value 0x2144DF1C) := by
  decide +kernel
/-- V-SYM-3, V-SYM-6. -/
theorem test_tosym : respond 0x03 0x4D170E0E [] = some (.symbols hiBlock) ∧
    respond 0x03 0xE4000000 [] = some (.symbols ([0x6C, 0x49, 0x30, 0x4F] ++ List.replicate 12 0x4F)) := by decide +kernel
/-- V-SYM-10, V-SYM-18, V-SYM-16. -/
theorem test_fromsym : respond 0x04 0 hiBlock = some (.value 0x4D170E0E) ∧
    respond 0x04 0 ([0x6F] ++ List.replicate 14 0x4F ++ [0x58]) = some (.error (.validation 0x6F 1)) ∧
    respond 0x04 0 [0x58] = some (.error .length) := by decide +kernel
/-- V-PCK-6, V-PCK-5. -/
theorem test_pack : respond 0x05 0 [72, 105] = some (.symbols hiMain) ∧
    respond 0x05 0 [0xE4] = some (.symbols [0x6C, 0x49, 0x30, 0x4F]) := by decide +kernel
/-- V-UNP-5, V-UNP-8. -/
theorem test_unpack : respond 0x06 0 [0x30, 0x4F, 0x49, 0x4F, 0x30, 0x49, 0x49] = some (.bytes [72]) ∧
    respond 0x06 0 [0x30, 0x4F, 0x49, 0x4F, 0x30, 0x58] = some (.error (.validation 0x58 6)) := by decide +kernel
/-- V-ENC-3, V-ENC-1. -/
theorem test_encode : respond 0x07 0 [72, 105] = some (.symbols (hiMain ++ hiBlock)) ∧
    respond 0x07 0 [] = some (.symbols []) := by decide +kernel
/-- V-DEC-2, V-DEC-3, V-DEC-1, V-DEC-6. -/
theorem test_decode_ok : respond 0x08 0 (hiMain ++ hiBlock) = some (.decoded [72, 105] true .v2) ∧
    respond 0x08 0 hiMain = some (.decoded [72, 105] false .v1) ∧
    respond 0x08 0 [] = some (.decoded [] false .empty) ∧
    respond 0x08 0 [0x30, 0x4F, 0x49, 0x4F, 0x58] = some (.error .format) := by decide +kernel
/-- V-DEC-8, V-DEC-9, V-DEC-10, V-DEC-20. -/
theorem test_decode_errors :
    respond 0x08 0 (hiMain ++ hiBlock.set 2 0x58) = some (.error (.validation 0x58 11)) ∧
    respond 0x08 0 (hiMain.set 0 0x4F ++ hiBlock) = some (.error (.integrity 0x4D170E0E 0xBD6E410B)) ∧
    respond 0x08 0 (hiMain.set 0 0x6C ++ hiBlock) = some (.error (.decoding [200, 105])) ∧
    respond 0x08 0 [0x6C, 0x49, 0x6C, 0x30, 0x49, 0x49, 0x4F, 0x4F, 0x49, 0x4F, 0x4F, 0x4F]
      = some (.error (.decoding [237, 160, 128])) := by decide +kernel
/-- V-DET-2, V-DET-4, V-DET-7. -/
theorem test_detect : respond 0x09 0 [0x30, 0x4F, 0x49, 0x4F] = some (.detected ⟨.v1, false, 4, 0, true⟩) ∧
    respond 0x09 0 (List.replicate 16 0x4F) = some (.detected ⟨.v1, false, 16, 0, true⟩) ∧
    respond 0x09 0 (List.replicate 24 0x58) = some (.detected ⟨.v2, true, 8, 16, true⟩) := by decide +kernel
/-- V-VAL-3, V-VAL-1, V-VAL-4. -/
theorem test_validate : respond 0x0A 0 [0x30, 0x4F, 0x49, 0x4F, 0x58] = some (.validated (.badChar 0x58 5)) ∧
    respond 0x0A 0 [] = some (.validated .empty) ∧
    respond 0x0A 0 [0x30, 0x4F, 0x49] = some (.validated .valid) := by decide +kernel
/-- V-QUA-3 with both divisors, V-QUA-5, V-QUA-13. -/
theorem test_quality : respond 0x0B 0 hiMain = some (.scored 100 0b000) ∧
    lastOn 0 (step ((State.resetWith { Config.spec with varDivisor := .sample }).present 0
      { cmd := 0x0B, arg := 0, input := hiMain })) = some (.scored 80 0b001) ∧
    respond 0x0B 0 [0x4F, 0x4F, 0x4F, 0x4F] = some (.scored 55 0b111) ∧
    respond 0x0B 0 [0x4F, 0x30, 0x4F, 0x30, 0x49, 0x6C, 0x49, 0x6C, 0x4F, 0x49, 0x6C, 0x30] = some (.scored 85 0b100) := by
  decide +kernel
/-- R18: only the listed fields are present. -/
theorem test_fields : (Response.error (.integrity 1 2)).fields = { status := 5, expected := some 1, actual := some 2 } ∧
    (Response.validated (.badChar 0x58 5)).fields
      = { status := 0, isValid := some false, reason := some 2, errChar := some 0x58, errPos := some 5 } := ⟨rfl, rfl⟩
/-- P5: a command on lane 1 leaves lane 0 as it was. -/
theorem test_lanes : (nextOf (step ((State.resetWith small).present 1
    { cmd := 0x08, arg := 0, input := [0x30, 0x4F, 0x49, 0x58] }))).map (fun t => t.lanes.map Lane.responses)
      = some [[], [.error (.validation 0x58 4)]] := by decide +kernel
/-- A row's word, presented by `withFetchWord`, is the next operation performed. -/
theorem test_withFetchWord : lastOn 0 (step (State.reset.withFetchWord 8 0x03)) = some (.symbols (List.replicate 16 0x4F)) := by
  decide +kernel

/-! ### Witnesses: concrete states and operands that meet the hypotheses of the obligations -/

/-- A two-lane block about to take two commands. -/
def busy : State :=
  { State.resetWith { Config.spec with lanes := 2 } with
    host := [.issue 0 { cmd := 0x07, arg := 0, input := [72] }, .issue 1 { cmd := 0x08, arg := 0, input := [0x58] }] }

/-- The same after the first command. -/
def busy1 : State := { busy with
  host := [.issue 1 { cmd := 0x08, arg := 0, input := [0x58] }],
  lanes := [{ responses := [.symbols (ciphertextOf buildTable [72])] }, { responses := [] }] }

/-- The same after both. -/
def busy2 : State := { busy1 with
  host := [], active := 1,
  lanes := [{ responses := [.symbols (ciphertextOf buildTable [72])] }, { responses := [.error .format] }] }

theorem witness_ResetMeetsTheInvariant : Config.wf { Config.spec with charW := 7 } = true := by decide
theorem witness_EveryStepKeepsTheInvariant : busy.WF ∧ step busy = .next busy1 :=
  ⟨⟨rfl, rfl, rfl, by decide, by simp [busy]⟩, rfl⟩
theorem witness_NoStepButResetWritesTheTable : step busy = .next busy1 := rfl
theorem witness_ResetEventForgetsEverything :
    ({ busy1 with host := [.reset] } : State).host = .reset :: [] ∧ busy1.lanes ≠ busy.lanes :=
  ⟨rfl, by decide +kernel⟩
theorem witness_DecodingAnEncodedOperationGivesIt : Instr.wf small (.decode [0xFFFF, 0, 0, 0]) = true := by decide
theorem witness_DecodedOperandsAreTheRecords :
    decode Config.spec { cmd := 0x02, arg := 5, input := [255, 0] } = .ok (.crcCalc [255, 0]) := rfl
theorem witness_StepRunsTheDecodedOperation :
    busy.host = .issue 0 { cmd := 0x07, arg := 0, input := [72] } :: busy1.host ∧ 0 < busy.lanes.length ∧
    decode busy.config { cmd := 0x07, arg := 0, input := [72] } = .ok (.encode [72]) := ⟨rfl, by decide, rfl⟩
theorem witness_ReservedWordsAnswerBadCommand (cmd : BitVec 8) (h : cmd ∈ [0x00#8, 0x0C#8, 0xFF#8]) :
    (busy.present 1 ⟨cmd, 0, []⟩).host = .issue 1 ⟨cmd, 0, []⟩ :: busy.host ∧
    busy.lanes[1]? = some { responses := [] } ∧ busy.config.maxLen = none ∧ (cmd.toNat = 0 ∨ 12 ≤ cmd.toNat) :=
  ⟨rfl, rfl, rfl, by revert h; revert cmd; decide +kernel⟩
theorem witness_TooLongInputHasNoStep :
    ((State.resetWith small).present 1 ⟨0x02, 0, [0, 0, 0, 0, 0]⟩).host = .issue 1 ⟨0x02, 0, [0, 0, 0, 0, 0]⟩ :: [] ∧
    1 < (State.resetWith small).lanes.length ∧ small.maxLen = some 4 ∧ 4 < [0, 0, 0, 0, 0].length ∧
    State.reset.config.maxLen = none := ⟨rfl, by decide, rfl, by decide, rfl⟩
theorem witness_UnpresentableElementsAreRefused :
    (∃ v ∈ [256], 256 ≤ v) ∧ (∃ v ∈ [65536], 2 ^ (State.resetWith small).config.charW ≤ v) ∧
    (∀ m, (State.resetWith small).config.maxLen = some m → [256].length ≤ m) ∧ 1 < (State.resetWith small).lanes.length :=
  ⟨⟨256, by simp⟩, ⟨65536, by simp [small]⟩, fun m h => by cases h; decide, by decide⟩
theorem witness_EventsOnMissingLanesAreRefused :
    busy.lanes.length ≤ 2 ∧ (busy.present 2 ⟨0, 0, []⟩).host = .issue 2 ⟨0, 0, []⟩ :: busy.host ∧
    ({ busy with host := [.take 2] } : State).host = .take 2 :: [] := ⟨by decide, rfl, rfl⟩
theorem witness_AcceptableEventsAlwaysStep :
    (HostEvent.issue 1 { cmd := 0x08, arg := 0, input := [0xFFFF] }).Acceptable (State.resetWith small) ∧
    (HostEvent.issue 0 { cmd := 0x07, arg := 0, input := [255] }).Acceptable (State.resetWith small) ∧
    (HostEvent.take 1).Acceptable (State.resetWith small) ∧ HostEvent.reset.Acceptable (State.resetWith small) :=
  ⟨⟨by decide, fun m h => by cases h; decide, by simp, by simp [small]⟩,
    ⟨by decide, fun m h => by cases h; decide, by simp, by simp⟩,
    show 1 < (State.resetWith small).lanes.length by decide, trivial⟩
theorem witness_TakingEmptiesOneLane :
    ({ busy1 with host := [.take 0] } : State).host = .take 0 :: [] ∧ 0 < busy1.lanes.length ∧ busy2.host = [] :=
  ⟨rfl, by decide, rfl⟩
theorem witness_OperationsChangeOnlyTheirOwnLane :
    exec (.encode [72]) busy = .next { busy1 with host := busy.host } ∧ busy.lanes[busy.active]? = some { responses := [] } :=
  ⟨rfl, rfl⟩
theorem witness_ResponsesDependOnCommandAndTableOnly :
    busy.config = busy2.config ∧ busy.table = busy2.table ∧ busy ≠ busy2 := ⟨rfl, rfl, by decide +kernel⟩
theorem witness_LanesDoNotInterfere : (0 : Nat) ≠ 1 ∧
    busy.host = .issue 0 { cmd := 0x07, arg := 0, input := [72] } :: .issue 1 { cmd := 0x08, arg := 0, input := [0x58] } :: [] ∧
    step busy = .next busy1 ∧ step busy1 = .next busy2 := ⟨by decide, rfl, rfl, rfl⟩
theorem witness_EarlierCommandsLeaveNothingBehind :
    step busy = .next busy1 ∧ step busy1 = .next busy2 ∧ busy.lanes[1]? = some { responses := [] } ∧
    busy1.lanes[1]? = some { responses := [] } := ⟨rfl, rfl, rfl, rfl⟩
theorem witness_CrcTblrd : 255 < (256#32).toNat ∧ (255#32).toNat < 256 ∧ busy.table = buildTable ∧
    small.accepts [1, 2, 3, 4].length = true := ⟨by decide, by decide, rfl, by decide⟩
theorem witness_CrcFromsym : (List.replicate 15 0x4F).length ≠ 16 ∧
    (FirstBad (List.replicate 15 0x4F ++ [0x58]) 0x58 16 ∧ (List.replicate 15 0x4F ++ [0x58]).length = 16) ∧
    (hiBlock.length = 16 ∧ ∀ c ∈ hiBlock, IsSym c) ∧ Instr.wf Config.spec (.crcFromsym hiBlock) = true :=
  ⟨by decide, ⟨⟨List.replicate 15 0x4F, [], rfl, by simp [IsSym], by simp [IsSym], rfl⟩, rfl⟩,
    ⟨rfl, by simp [hiBlock, IsSym]⟩, by decide⟩
theorem witness_Utf8Test : small.utf8 = .spec ∧ Config.spec.utf8 = .spec ∧
    wellFormedUtf8 small [0xF4, 0x8F, 0xBF, 0xBF] = true ∧ wellFormedUtf8 small [0xF4, 0x90, 0x80, 0x80] = false :=
  ⟨rfl, rfl, by decide, by decide⟩
theorem witness_OneChangedByte : (0 : Byte) ≠ 255 := by decide
theorem witness_PackerFunctions : [true, false].length = 2 * 1 ∧ [true].length % 2 = 1 ∧
    (bitsToBytes (List.replicate 15 true))[0]? = some 255 := ⟨rfl, rfl, by decide⟩
theorem witness_SymUnpack : (∀ c ∈ [0x4F, 0x30, 0x49, 0x6C, 0x4F], IsSym c) ∧ FirstBad [0x4F, 0x6F, 0x58] 0x6F 2 :=
  ⟨by simp [IsSym], ⟨[0x4F], [0x58], rfl, by simp [IsSym], by simp [IsSym], rfl⟩⟩
theorem witness_OneSymbolIsOneLane : (∀ c ∈ [0x4F, 0x30, 0x49, 0x6C, 0x4F], IsSym c) ∧ IsSym 0x30 ∧ 3 < 4 * (5 / 4) ∧
    [0x4F, 0x30, 0x49, 0x6C, 0x4F][3]? ≠ some 0x30 := ⟨by simp [IsSym], by simp [IsSym], by decide, by decide⟩
theorem witness_EncodeNonEmpty : ([72] : List Byte) ≠ [] ∧ wellFormedUtf8 Config.spec [72] = true ∧
    wellFormedUtf8 Config.spec [255] = false := ⟨by decide, by decide, by decide⟩
/-- One input for each clause of DECODE: a length that fits no shape, a bad character, the longest v1, the
shortest v2 with a matching checksum and with another. -/
theorem witness_DecodeFollowsItsSteps : [0x4F].length % 4 ≠ 0 ∧ FirstBad [0x4F, 0x4F, 0x4F, 0x6F] 0x6F 4 ∧
    ((List.replicate 16 0x4F).length = 16 ∧ ∀ c ∈ List.replicate 16 0x4F, IsSym c) ∧
    (∃ main blk, (∀ c ∈ main ++ blk, IsSym c) ∧ blk.length = 16 ∧ main.length = 4 ∧
      wellFormedUtf8 Config.spec (unpacked main) = true ∧ checksum buildTable (unpacked main) = blockValue blk) ∧
    checksum buildTable (unpacked [0x4F, 0x4F, 0x4F, 0x4F]) ≠ blockValue (List.replicate 16 0x4F) :=
  ⟨by decide, ⟨[0x4F, 0x4F, 0x4F], [], rfl, by simp [IsSym], by simp [IsSym], rfl⟩, ⟨rfl, by simp [IsSym]⟩,
    ⟨packed [72], block 0xAA05262F, by simp [packed, byteSymbols, block, IsSym, codeOf, List.range_succ], rfl, rfl,
      by decide +kernel, by decide +kernel⟩, by decide +kernel⟩
theorem witness_VerifiedMeansTheChecksumMatched : busy.active < busy.lanes.length := by decide
theorem witness_LongV1 : 1 ≤ ([72] : List Byte).length ∧ ([1, 2, 3, 4] : List Byte).length ≤ 4 := by decide
/-- The first and the last main symbol, the first and the last symbol of the block. -/
theorem witness_OneWrongSymbol : busy.table = buildTable ∧
    (ciphertextOf buildTable [72])[0]? ≠ some 0x4F ∧ (ciphertextOf buildTable [72])[3]? ≠ some 0x30 ∧
    (ciphertextOf buildTable [72])[4]? ≠ some 0x4F ∧ (ciphertextOf buildTable [72])[19]? ≠ some 0x4F := by
  refine ⟨rfl, ?_⟩
  decide +kernel
theorem witness_Validate : ([0x4F] : List Nat) ≠ [] ∧ (∀ c ∈ [0x4F], IsSym c) ∧ FirstBad [0x58, 0x59] 0x58 1 :=
  ⟨by decide, by simp [IsSym], ⟨[], [0x59], rfl, by simp, by simp [IsSym], rfl⟩⟩

end Sys2Proof.Tests
end

section
/-! Facts about TABLE, reset and the issue of a command record that the statements of the scope rest on. -/

namespace Sys2Proof

/-- The ranges of R6 as arithmetic. -/
theorem Config.wf_iff (c : Config) : c.wf = true ↔ 7 ≤ c.charW ∧ 1 ≤ c.lanes := by
  simp [Config.wf]

end Sys2Proof

namespace Sys2Proof.Machine

open Sys2Proof.Reference

/-- TABLE lists the entries of `BuildTable()` in order (R80). -/
theorem buildTable_toList : buildTable.toList = (List.range 256).map tableEntry := by
  simp [buildTable]

/-- The values computed by R80 are those of the listing of R81. -/
theorem buildTable_toList_eq_listedTable : buildTable.toList = listedTable := by
  rw [buildTable_toList]
  decide +kernel

/-- Reset leaves nothing but idle lanes (R201). -/
theorem State.eq_idle_of_mem_resetWith_lanes {c : Config} {l : Lane} (h : l ∈ (State.resetWith c).lanes) :
    l = Lane.idle :=
  List.eq_of_mem_replicate h

/-- No response is outstanding after reset (R201). -/
theorem State.responses_eq_nil_of_mem_resetWith_lanes {c : Config} {l : Lane}
    (h : l ∈ (State.resetWith c).lanes) : l.responses = [] := by
  rw [State.eq_idle_of_mem_resetWith_lanes h, Lane.idle_responses]

/-- The block has `LANES` lanes after reset (R21). -/
theorem State.resetWith_lanes_length (c : Config) : (State.resetWith c).lanes.length = c.lanes :=
  List.length_replicate

/-- Reset establishes the invariant: the lane made active exists because `LANES` is at least 1, and the invariant's
demand on responses is met because there are none. -/
theorem State.resetWith_wf {c : Config} (hc : c.wf = true) : (State.resetWith c).WF where
  config := hc
  table := State.resetWith_table c
  lanes := State.resetWith_lanes_length c
  active := by
    obtain ⟨-, hlanes⟩ := c.wf_iff.1 hc
    rw [State.resetWith_active, State.resetWith_lanes_length]
    exact hlanes
  responses := fun l hl r hr => by
    rw [State.responses_eq_nil_of_mem_resetWith_lanes hl] at hr
    exact absurd hr List.not_mem_nil

/-- A record that decodes is performed by running its operation. -/
theorem perform_of_decode_ok {r : Command} {s : State} {i : Instr} (h : decode s.config r = .ok i) :
    perform r s = exec i s := by
  simp [perform, h]

/-- A record issued to a lane that exists is performed with that lane active. -/
theorem handle_issue {s : State} {k : Nat} (r : Command) (h : k < s.lanes.length) :
    handle (.issue k r) s = perform r (s.onLane k) := by
  simp [handle, h]

end Sys2Proof.Machine

namespace Sys2Proof.Proofs.Scope

open Sys2Proof.Machine Sys2Proof.Reference

/-- Settles O2: TABLE is the listing, and the lanes are copies of the idle lane. -/
theorem resetBuildsTableAndIdlesEveryLane : Obligations.ResetBuildsTableAndIdlesEveryLane := by
  refine ⟨fun c => ⟨?table, ?config, ?count, ?idle, ?host⟩, rfl⟩
  case table => rw [State.resetWith_table, buildTable_toList_eq_listedTable]
  case config => exact State.resetWith_config c
  case count => exact State.resetWith_lanes_length c
  case idle => exact fun l hl => State.responses_eq_nil_of_mem_resetWith_lanes hl
  case host => exact State.resetWith_host c

/-- Settles O3, by the invariant's base case. -/
theorem resetMeetsTheInvariant : Obligations.ResetMeetsTheInvariant :=
  fun _ hc => State.resetWith_wf hc

/-- Settles O10: the step takes the event off, the event makes its lane active, and the record is performed there. -/
theorem stepRunsTheDecodedOperation : Obligations.StepRunsTheDecodedOperation := by
  intro s k r rest i hhost hlane hdecode
  calc step s
      = handle (.issue k r) { s with host := rest } := step_event s _ rest hhost
    _ = perform r (State.onLane { s with host := rest } k) := handle_issue r hlane
    _ = exec i (State.onLane { s with host := rest } k) := perform_of_decode_ok hdecode
    _ = exec i { s with host := rest, active := k } := rfl

end Sys2Proof.Proofs.Scope
end

section
/-! Command decode, word by word (R61 to R64), and its agreement with the encoder. -/

namespace Sys2Proof

/-! ### The two readers of IN -/

/-- A mapped result is a success only of a success. -/
theorem exists_of_map_eq_ok {ε α β : Type} {x : Except ε α} {f : α → β} {b : β} (h : x.map f = .ok b) :
    ∃ a, x = .ok a ∧ f a = b := by
  cases x with
  | ok a => exact ⟨a, rfl, by simpa [Except.map] using h⟩
  | error e => simp [Except.map] at h

/-- Format B reads back the numbers of a byte sequence. -/
theorem readBytes_map_toNat (bytes : List Byte) : readBytes (bytes.map BitVec.toNat) = .ok bytes := by
  refine (readBytes_ok_iff _ _).2 ⟨fun v hv => ?_, ?_⟩
  · obtain ⟨b, -, rfl⟩ := List.mem_map.1 hv
    exact b.isLt
  · simp [Function.comp_def]

/-- The bytes read are the elements of IN. -/
theorem map_toNat_of_readBytes_ok {input : List Nat} {bytes : List Byte} (h : readBytes input = .ok bytes) :
    bytes.map BitVec.toNat = input := by
  obtain ⟨hfits, rfl⟩ := (readBytes_ok_iff input bytes).1 h
  have hback : ∀ v ∈ input, (BitVec.ofNat 8 v).toNat = v := fun v hv => Nat.mod_eq_of_lt (hfits v hv)
  rw [List.map_map]
  exact (List.map_congr_left (g := id) hback).trans (List.map_id input)

/-- Format S reads any sequence of character codes as it stands. -/
theorem readChars_of_charFits {c : Config} {chars : List CharCode} (h : chars.all c.charFits = true) :
    readChars c chars = .ok chars := by
  simp [readChars, h]

/-- The character codes read are the elements of IN, and each has `CHAR_W` bits. -/
theorem eq_and_charFits_of_readChars_ok {c : Config} {input : List Nat} {chars : List CharCode}
    (h : readChars c input = .ok chars) : chars = input ∧ input.all c.charFits = true := by
  obtain ⟨hfits, rfl⟩ := (readChars_ok_iff c input chars).1 h
  exact ⟨rfl, by simpa [Config.charFits] using hfits⟩

/-- Format B refuses an element that is no byte. -/
theorem readBytes_of_wide {input : List Nat} (h : ∃ v ∈ input, 256 ≤ v) :
    readBytes input = .error .malformedInput := by
  obtain ⟨v, hv, hwide⟩ := h
  cases hread : readBytes input with
  | error e => rw [readBytes_error input e hread]
  | ok bytes =>
    obtain ⟨hfits, -⟩ := (readBytes_ok_iff input bytes).1 hread
    exact absurd (hfits v hv) (Nat.not_lt.2 hwide)

/-- Format S refuses an element of more than `CHAR_W` bits. -/
theorem readChars_of_wide {c : Config} {input : List Nat} (h : ∃ v ∈ input, 2 ^ c.charW ≤ v) :
    readChars c input = .error .malformedInput := by
  obtain ⟨v, hv, hwide⟩ := h
  cases hread : readChars c input with
  | error e => rw [readChars_error c input e hread]
  | ok chars =>
    obtain ⟨hfits, -⟩ := (readChars_ok_iff c input chars).1 hread
    exact absurd (hfits v hv) (Nat.not_lt.2 hwide)

/-! ### One equation per command word -/

section Words

variable (c : Config) (arg : Word) (input : List Nat)

@[simp] theorem decodeAccepted_crcTblrd : decodeAccepted c ⟨0x01#8, arg, input⟩ = .ok (.crcTblrd arg) := by
  simp [decodeAccepted]
@[simp] theorem decodeAccepted_crcCalc :
    decodeAccepted c ⟨0x02#8, arg, input⟩ = (readBytes input).map .crcCalc := by
  simp [decodeAccepted]
@[simp] theorem decodeAccepted_crcTosym : decodeAccepted c ⟨0x03#8, arg, input⟩ = .ok (.crcTosym arg) := by
  simp [decodeAccepted]
@[simp] theorem decodeAccepted_crcFromsym :
    decodeAccepted c ⟨0x04#8, arg, input⟩ = (readChars c input).map .crcFromsym := by
  simp [decodeAccepted]
@[simp] theorem decodeAccepted_symPack :
    decodeAccepted c ⟨0x05#8, arg, input⟩ = (readBytes input).map .symPack := by
  simp [decodeAccepted]
@[simp] theorem decodeAccepted_symUnpack :
    decodeAccepted c ⟨0x06#8, arg, input⟩ = (readChars c input).map .symUnpack := by
  simp [decodeAccepted]
@[simp] theorem decodeAccepted_encode :
    decodeAccepted c ⟨0x07#8, arg, input⟩ = (readBytes input).map .encode := by
  simp [decodeAccepted]
@[simp] theorem decodeAccepted_decode :
    decodeAccepted c ⟨0x08#8, arg, input⟩ = (readChars c input).map .decode := by
  simp [decodeAccepted]
@[simp] theorem decodeAccepted_detect :
    decodeAccepted c ⟨0x09#8, arg, input⟩ = (readChars c input).map .detect := by
  simp [decodeAccepted]
@[simp] theorem decodeAccepted_validate :
    decodeAccepted c ⟨0x0A#8, arg, input⟩ = (readChars c input).map .validate := by
  simp [decodeAccepted]
@[simp] theorem decodeAccepted_quality :
    decodeAccepted c ⟨0x0B#8, arg, input⟩ = (readChars c input).map .quality := by
  simp [decodeAccepted]

end Words

/-- Every other command word is reserved, whatever the record holds (R64). -/
theorem decodeAccepted_reserved (c : Config) (r : Command) (h : r.cmd.toNat = 0 ∨ 12 ≤ r.cmd.toNat) :
    decodeAccepted c r = .error .reserved := by
  unfold decodeAccepted
  split
  case isFalse => rfl
  case isTrue hhigh =>
    have hhighNat := congrArg BitVec.toNat hhigh
    rw [BitVec.extractLsb'_toNat, Nat.shiftRight_eq_div_pow, BitVec.toNat_ofNat] at hhighNat
    have hlow : (r.cmd.extractLsb' 0 4).toNat = r.cmd.toNat := by
      rw [BitVec.extractLsb'_toNat, Nat.shiftRight_zero]
      omega
    rw [hlow]
    split
    case h_12 => rfl
    all_goals omega

/-- A command word is reserved or one of the eleven of R62. -/
theorem commandWord_cases {motive : BitVec 8 → Prop} (w : BitVec 8)
    (reserved : ∀ w : BitVec 8, w.toNat = 0 ∨ 12 ≤ w.toNat → motive w)
    (crcTblrd : motive 0x01#8) (crcCalc : motive 0x02#8) (crcTosym : motive 0x03#8)
    (crcFromsym : motive 0x04#8) (symPack : motive 0x05#8) (symUnpack : motive 0x06#8)
    (encode : motive 0x07#8) (decode : motive 0x08#8) (detect : motive 0x09#8)
    (validate : motive 0x0A#8) (quality : motive 0x0B#8) : motive w := by
  by_cases h : w.toNat = 0 ∨ 12 ≤ w.toNat
  · exact reserved w h
  · obtain ⟨n, hn⟩ : ∃ n, w.toNat = n := ⟨_, rfl⟩
    obtain rfl : w = BitVec.ofNat 8 n := by rw [← hn, BitVec.ofNat_toNat, BitVec.setWidth_eq]
    rw [hn] at h
    have hn1 : 1 ≤ n := by omega
    have hn11 : n ≤ 11 := by omega
    interval_cases n <;> assumption

/-! ### Decode and encode agree -/

/-- The operand is the field of the record that the operation's format reads (R63). -/
def Instr.OperandIn (r : Command) : Instr → Prop
  | .crcTblrd index => index = r.arg
  | .crcTosym checksum => checksum = r.arg
  | .crcCalc bytes | .symPack bytes | .encode bytes => bytes.map BitVec.toNat = r.input
  | .crcFromsym chars | .symUnpack chars | .decode chars | .detect chars | .validate chars | .quality chars =>
    chars = r.input

/-- What an accepted record decodes to can exist, has the record's word and the record's operand. -/
theorem decodeAccepted_sound {c : Config} {r : Command} {i : Instr} (hacc : c.accepts r.inLen = true)
    (h : decodeAccepted c r = .ok i) : i.wf c = true ∧ (encode i).cmd = r.cmd ∧ i.OperandIn r := by
  obtain ⟨cmd, arg, input⟩ := r
  change c.accepts input.length = true at hacc
  cases cmd using commandWord_cases with
  | reserved w hw =>
    rw [decodeAccepted_reserved c _ hw] at h
    cases h
  | crcTblrd | crcTosym =>
    simp only [decodeAccepted_crcTblrd, decodeAccepted_crcTosym, Except.ok.injEq] at h
    subst h
    exact ⟨rfl, rfl, rfl⟩
  | crcCalc | symPack | encode =>
    simp only [decodeAccepted_crcCalc, decodeAccepted_symPack, decodeAccepted_encode] at h
    obtain ⟨bytes, hread, rfl⟩ := exists_of_map_eq_ok h
    obtain rfl := map_toNat_of_readBytes_ok hread
    exact ⟨by simpa [Instr.wf] using hacc, rfl, rfl⟩
  | crcFromsym | symUnpack | decode | detect | validate | quality =>
    simp only [decodeAccepted_crcFromsym, decodeAccepted_symUnpack, decodeAccepted_decode, decodeAccepted_detect,
      decodeAccepted_validate, decodeAccepted_quality] at h
    obtain ⟨chars, hread, rfl⟩ := exists_of_map_eq_ok h
    obtain ⟨rfl, hfits⟩ := eq_and_charFits_of_readChars_ok hread
    exact ⟨by simp [Instr.wf, hacc, hfits], rfl, rfl⟩

/-- What is decoded was accepted first (R207). -/
theorem accepts_of_decode_ok {c : Config} {r : Command} {i : Instr} (h : decode c r = .ok i) :
    c.accepts r.inLen = true := by
  by_contra hacc
  rw [decode_of_tooLong c r (by simpa using hacc)] at h
  cases h

/-- What is decoded can exist, has the record's word and the record's operand. -/
theorem decode_sound {c : Config} {r : Command} {i : Instr} (h : decode c r = .ok i) :
    i.wf c = true ∧ (encode i).cmd = r.cmd ∧ i.OperandIn r := by
  have hacc := accepts_of_decode_ok h
  rw [decode_of_accepted c r hacc] at h
  exact decodeAccepted_sound hacc h

/-- The record of an operation that can exist is accepted: a word format leaves IN empty (R16). -/
theorem accepts_encode {c : Config} {i : Instr} (h : i.wf c = true) : c.accepts (encode i).inLen = true := by
  cases i with
  | crcTblrd | crcTosym => exact (c.accepts_iff 0).2 fun m _ => Nat.zero_le m
  | crcCalc bytes | symPack bytes | encode bytes =>
    simpa [Instr.wf, Command.inLen, Sys2Proof.encode] using h
  | crcFromsym chars | symUnpack chars | decode chars | detect chars | validate chars | quality chars =>
    obtain ⟨hacc, -⟩ := Bool.and_eq_true_iff.1 h
    exact hacc

/-- The decoder is a left inverse of the encoder on the operations that can exist. -/
theorem decode_encode {c : Config} {i : Instr} (h : i.wf c = true) : decode c (encode i) = .ok i := by
  rw [decode_of_accepted c _ (accepts_encode h)]
  cases i with
  | crcTblrd | crcTosym => simp [Sys2Proof.encode]
  | crcCalc bytes | symPack bytes | encode bytes =>
    simp [Sys2Proof.encode, readBytes_map_toNat, Except.map]
  | crcFromsym chars | symUnpack chars | decode chars | detect chars | validate chars | quality chars =>
    obtain ⟨-, hfits⟩ := Bool.and_eq_true_iff.1 h
    simp [Sys2Proof.encode, readChars_of_charFits hfits, Except.map]

/-! ### Records that cannot be presented -/

/-- An accepted record of format B with an element that is no byte (log entry 8). -/
theorem decode_formatB_of_wide {c : Config} {r : Command} (hacc : c.accepts r.inLen = true)
    (hcmd : r.cmd = 0x02#8 ∨ r.cmd = 0x05#8 ∨ r.cmd = 0x07#8) (hwide : ∃ v ∈ r.input, 256 ≤ v) :
    decode c r = .error .malformedInput := by
  rw [decode_of_accepted c r hacc]
  obtain ⟨cmd, arg, input⟩ := r
  have hread : readBytes input = .error .malformedInput := readBytes_of_wide hwide
  rcases hcmd with rfl | rfl | rfl <;> simp [hread, Except.map]

/-- An accepted record of format S with an element of more than `CHAR_W` bits (log entry 8). -/
theorem decode_formatS_of_wide {c : Config} {r : Command} (hacc : c.accepts r.inLen = true)
    (hcmd : r.cmd = 0x04#8 ∨ r.cmd = 0x06#8 ∨ r.cmd = 0x08#8 ∨ r.cmd = 0x09#8 ∨ r.cmd = 0x0A#8 ∨ r.cmd = 0x0B#8)
    (hwide : ∃ v ∈ r.input, 2 ^ c.charW ≤ v) : decode c r = .error .malformedInput := by
  rw [decode_of_accepted c r hacc]
  obtain ⟨cmd, arg, input⟩ := r
  have hread : readChars c input = .error .malformedInput := readChars_of_wide hwide
  rcases hcmd with rfl | rfl | rfl | rfl | rfl | rfl <;> simp [hread, Except.map]

end Sys2Proof
end

section
/-! Command records and lanes the host cannot present: the step refuses them by name (log entries 8 and 10). -/

namespace Sys2Proof.Machine

/-- A record that cannot be presented is not performed. -/
theorem perform_of_malformed {r : Command} {s : State} (h : decode s.config r = .error .malformedInput) :
    perform r s = .refused .malformedInput := by
  simp [perform, h]

/-- A command to a lane the block does not have is not handled. -/
theorem handle_issue_missing {s : State} {k : Nat} (r : Command) (h : s.lanes.length ≤ k) :
    handle (.issue k r) s = .refused .noSuchLane := by
  simp [handle, Nat.not_lt.2 h]

/-- Nothing is taken from a lane the block does not have. -/
theorem handle_take_missing {s : State} {k : Nat} (h : s.lanes.length ≤ k) :
    handle (.take k) s = .refused .noSuchLane := by
  simp [handle, Nat.not_lt.2 h]

end Sys2Proof.Machine

namespace Sys2Proof.Proofs.CommandRecords

open Sys2Proof.Machine

/-- Settles O7: the record is accepted, its word selects the operation's row, and the reader of the operation's
format gives the operand back. -/
theorem decodingAnEncodedOperationGivesIt : Obligations.DecodingAnEncodedOperationGivesIt :=
  fun _ _ hwf => decode_encode hwf

/-- Settles O8, by the soundness of the decoder; the cases only say which field each format reads. -/
theorem decodedOperandsAreTheRecords : Obligations.DecodedOperandsAreTheRecords := by
  intro c r i hdecode
  obtain ⟨hwf, hword, hoperand⟩ := decode_sound hdecode
  refine ⟨hwf, hword, ?_⟩
  cases i <;> exact hoperand

/-- Settles O13: whichever format reads the wide element refuses it. -/
theorem unpresentableElementsAreRefused : Obligations.UnpresentableElementsAreRefused := by
  intro s k r rest hhost hlane hlen hwide
  have hacc : s.config.accepts r.inLen = true := (s.config.accepts_iff r.inLen).2 hlen
  have hdecode : decode s.config r = .error .malformedInput := by
    obtain ⟨hcmd, hbyte⟩ | ⟨hcmd, hchar⟩ := hwide
    · exact decode_formatB_of_wide hacc hcmd hbyte
    · exact decode_formatS_of_wide hacc hcmd hchar
  calc step s
      = handle (.issue k r) { s with host := rest } := step_event s _ rest hhost
    _ = perform r (State.onLane { s with host := rest } k) := handle_issue r hlane
    _ = .refused .malformedInput := perform_of_malformed hdecode

/-- Settles O14, for both kinds of lane event. -/
theorem eventsOnMissingLanesAreRefused : Obligations.EventsOnMissingLanesAreRefused := by
  intro s k r rest hmissing hhost
  obtain hissue | htake := hhost
  · rw [step_event s _ rest hissue]
    exact handle_issue_missing r hmissing
  · rw [step_event s _ rest htake]
    exact handle_take_missing hmissing

end Sys2Proof.Proofs.CommandRecords
end

section
/-! What the operations answer: every response is one the block can give (R18, R59, R155, R171). -/

namespace Sys2Proof.Machine

/-! ### Symbols and the sequences made of them -/

/-- A symbol's code has 7 bits, so every configuration can carry it (R6, R50). -/
theorem charFits_of_isSymbol {c : Config} (hc : c.wf = true) {code : CharCode} (h : isSymbol code = true) :
    c.charFits code = true := by
  obtain ⟨hwidth, -⟩ := c.wf_iff.1 hc
  have hpow : 2 ^ 7 ≤ 2 ^ c.charW := Nat.pow_le_pow_right (by decide) hwidth
  have hcode : code < 2 ^ 7 := by
    rcases (isSymbol_iff code).1 h with rfl | rfl | rfl | rfl <;> decide
  simpa [Config.charFits] using lt_of_lt_of_le hcode hpow

theorem isSymbol_symOf : ∀ g : Group, isSymbol (symOf g) = true := by
  decide

theorem isSymbol_of_mem_map_symOf {gs : List Group} {code : CharCode} (h : code ∈ gs.map symOf) :
    isSymbol code = true := by
  obtain ⟨g, -, rfl⟩ := List.mem_map.1 h
  exact isSymbol_symOf g

theorem isSymbol_of_mem_pack {bytes : List Byte} {code : CharCode} (h : code ∈ pack bytes) :
    isSymbol code = true :=
  isSymbol_of_mem_map_symOf h

theorem isSymbol_of_mem_toSymbols {w : Word} {code : CharCode} (h : code ∈ toSymbols w) :
    isSymbol code = true := by
  obtain ⟨j, -, rfl⟩ := List.mem_map.1 h
  exact isSymbol_symOf _

theorem isSymbol_of_mem_ciphertextOf {t : CrcTable} {bytes : List Byte} {code : CharCode}
    (h : code ∈ ciphertextOf t bytes) : isSymbol code = true := by
  unfold ciphertextOf at h
  split at h
  · cases h
  · obtain hmain | hblock := List.mem_append.1 h
    · exact isSymbol_of_mem_pack hmain
    · exact isSymbol_of_mem_toSymbols hblock

theorem toSymbols_length (w : Word) : (toSymbols w).length = 16 := by
  simp [toSymbols]

/-! ### How many bytes a symbol sequence carries (R107, R109) -/

theorem groupsToBits_length (gs : List Group) : (groupsToBits gs).length = 2 * gs.length := by
  induction gs with
  | nil => rfl
  | cons g gs ih =>
    simp only [groupsToBits, List.flatMap_cons, List.length_append, List.length_cons, List.length_nil] at ih ⊢
    omega

/-- Bits left over after the last whole byte are dropped (R107). -/
theorem bitsToBytes_length : ∀ bits : List Bool, (bitsToBytes bits).length = bits.length / 8
  | [] | [_] | [_, _] | [_, _, _] | [_, _, _, _] | [_, _, _, _, _] | [_, _, _, _, _, _] | [_, _, _, _, _, _, _] => by
    simp [bitsToBytes]
  | _ :: _ :: _ :: _ :: _ :: _ :: _ :: _ :: rest => by
    simp only [bitsToBytes, List.length_cons, bitsToBytes_length rest]
    omega

/-- Four symbols make a byte. -/
theorem unpack_length {s : List CharCode} (h : ∀ code ∈ s, isSymbol code = true) :
    (unpack s).length = s.length / 4 := by
  rw [unpack, bitsToBytes_length, groupsToBits_length, groupsOf_length s h]
  omega

/-! ### The symbol check -/

/-- What the symbol check reports is an element of the input, no symbol, at a position counted from 1 (R174). -/
theorem firstNonSymbol_payload {c : Config} {s : List CharCode} (hfits : s.all c.charFits = true)
    {code : CharCode} {pos : Nat} (h : firstNonSymbol 1 s = some (code, pos)) :
    c.charFits code = true ∧ isSymbol code = false ∧ 1 ≤ pos := by
  obtain ⟨pre, post, rfl, -, hbad, rfl⟩ := (firstNonSymbol_eq_some_iff 1 s code pos).1 h
  exact ⟨List.all_eq_true.1 hfits code (by simp), hbad, Nat.le_add_right 1 _⟩

/-- 16 symbols always give a checksum (R88). -/
theorem fromSymbols_of_symbols {s : List CharCode} (hlen : s.length = 16)
    (hsym : ∀ code ∈ s, isSymbol code = true) : fromSymbols s = .ok (wordOfGroups (groupsOf s)) := by
  simp [fromSymbols, requireSymbols, hlen, (firstNonSymbol_eq_none_iff 1 s).2 hsym]

/-! ### The answers of the operations that check their operand -/

section Answers

variable (c : Config) (t : CrcTable) (chars : List CharCode)

/-- The answers of CRC.TBLRD (R82). -/
theorem answer_crcTblrd_cases (index : Word) :
    answer c t (.crcTblrd index) = .error .badCommand ∨ ∃ w, answer c t (.crcTblrd index) = .value w := by
  by_cases h : 255 < index.toNat
  · exact .inl (if_pos h)
  · exact .inr ⟨_, if_neg h⟩

/-- The answers of CRC.FROMSYM (R89). -/
theorem answer_crcFromsym_cases :
    (∃ w, answer c t (.crcFromsym chars) = .value w) ∨ answer c t (.crcFromsym chars) = .error .length ∨
    ∃ code pos, answer c t (.crcFromsym chars) = .error (.validation code pos) ∧
      firstNonSymbol 1 chars = some (code, pos) := by
  simp only [answer, fromSymbols]
  split
  · obtain ⟨hok, -⟩ | ⟨code, pos, herr, hbad⟩ := requireSymbols_cases chars
    · exact .inl ⟨_, by rw [hok]; rfl⟩
    · exact .inr (.inr ⟨code, pos, by rw [herr]; rfl, hbad⟩)
  · exact .inr (.inl rfl)

/-- The answers of SYM.UNPACK (R111). -/
theorem answer_symUnpack_cases :
    answer c t (.symUnpack chars) = .bytes (unpack chars) ∨
    ∃ code pos, answer c t (.symUnpack chars) = .error (.validation code pos) ∧
      firstNonSymbol 1 chars = some (code, pos) := by
  simp only [answer]
  obtain ⟨hok, -⟩ | ⟨code, pos, herr, hbad⟩ := requireSymbols_cases chars
  · exact .inl (by rw [hok]; rfl)
  · exact .inr ⟨code, pos, by rw [herr]; rfl, hbad⟩

/-- The answers of VALIDATE (R150). -/
theorem answer_validate_cases :
    answer c t (.validate chars) = .validated .empty ∨ answer c t (.validate chars) = .validated .valid ∨
    ∃ code pos, answer c t (.validate chars) = .validated (.badChar code pos) ∧
      firstNonSymbol 1 chars = some (code, pos) := by
  simp only [answer, validate]
  split
  · exact .inl rfl
  · cases h : firstNonSymbol 1 chars with
    | none => exact .inr (.inl rfl)
    | some found => exact .inr (.inr ⟨found.1, found.2, rfl, rfl⟩)

end Answers

/-! ### DETECT and DECODE -/

/-- What DETECT answers says of a length what R58 and R120 say. -/
theorem detect_wf (n : Nat) : (detect n).WF := by
  unfold detect
  split
  case isTrue h =>
    obtain ⟨hlong, hfour⟩ := h
    exact .inr (.inr ⟨rfl, rfl, rfl, rfl, by change 4 ≤ n - 16; omega, hfour⟩)
  case isFalse hnot =>
    split
    case isTrue h =>
      exact .inr (.inl ⟨rfl, rfl, rfl, rfl, by change n = 4 ∨ n = 8 ∨ n = 12 ∨ n = 16; omega⟩)
    case isFalse => exact .inl ⟨rfl, rfl⟩

/-- A length DETECT calls v1 is one of 4, 8, 12, 16. -/
theorem length_of_detect_v1 {n : Nat} (h : (detect n).version = .v1) : 4 ≤ n ∧ n ≤ 16 := by
  unfold detect at h
  split at h
  · cases h
  · split at h
    · omega
    · cases h

/-- A length DETECT calls v2 is that of a block after at least one byte's symbols. -/
theorem length_of_detect_v2 {n : Nat} (h : (detect n).version = .v2) : 20 ≤ n := by
  unfold detect at h
  split at h
  · omega
  · split at h <;> cases h

theorem detect_version_ne_empty (n : Nat) : (detect n).version ≠ .empty := by
  unfold detect
  split
  · nofun
  · split <;> nofun

/-- The responses DECODE can give to an input, with what each claims (R130, R132). -/
inductive DecodeAnswer (c : Config) (s : List CharCode) : Response → Prop
  | empty : DecodeAnswer c s (.decoded [] false .empty)
  | format : DecodeAnswer c s (.error .format)
  | badSymbol (code : CharCode) (pos : Nat) (hbad : firstNonSymbol 1 s = some (code, pos)) :
      DecodeAnswer c s (.error (.validation code pos))
  | illFormed (out : List Byte) (hutf8 : wellFormedUtf8 c out = false) (hlen : 1 ≤ out.length) :
      DecodeAnswer c s (.error (.decoding out))
  | v1 (out : List Byte) (hutf8 : wellFormedUtf8 c out = true) (hlen : 1 ≤ out.length) (hshort : out.length ≤ 4) :
      DecodeAnswer c s (.decoded out false .v1)
  | mismatch (expected actual : Word) (hne : expected ≠ actual) :
      DecodeAnswer c s (.error (.integrity expected actual))
  | v2 (out : List Byte) (hutf8 : wellFormedUtf8 c out = true) (hlen : 1 ≤ out.length) :
      DecodeAnswer c s (.decoded out true .v2)

/-- A v1 input carries one to four bytes, which pass the UTF-8 test or are reported (R130). -/
theorem decodeV1_answer (c : Config) {s : List CharCode} (hsym : ∀ code ∈ s, isSymbol code = true)
    (hmin : 4 ≤ s.length) (hmax : s.length ≤ 16) : DecodeAnswer c s (responseOf (decodeV1 c s)) := by
  have hbytes := unpack_length hsym
  have hlen : 1 ≤ (unpack s).length := by omega
  have hshort : (unpack s).length ≤ 4 := by omega
  unfold decodeV1
  by_cases hutf8 : wellFormedUtf8 c (unpack s) = true
  · simpa only [hutf8, if_true] using .v1 _ hutf8 hlen hshort
  · rw [if_neg hutf8]
    exact .illFormed _ (by simpa using hutf8) hlen

/-- A v2 input carries at least one byte; the checksum is compared only after the UTF-8 test (R130, R178). The block
holds 16 symbols, so reading it cannot fail. -/
theorem decodeV2_answer (c : Config) (t : CrcTable) {s main block : List CharCode}
    (hmain : ∀ code ∈ main, isSymbol code = true) (hmin : 4 ≤ main.length)
    (hblock : ∀ code ∈ block, isSymbol code = true) (hlen16 : block.length = 16) :
    DecodeAnswer c s (responseOf (decodeV2 c t main block)) := by
  have hbytes := unpack_length hmain
  have hlen : 1 ≤ (unpack main).length := by omega
  simp only [decodeV2, fromSymbols_of_symbols hlen16 hblock]
  by_cases hutf8 : wellFormedUtf8 c (unpack main) = true
  · rw [if_pos hutf8]
    by_cases hcrc : crc t (unpack main) = wordOfGroups (groupsOf block)
    · rw [if_pos hcrc]
      exact .v2 _ hutf8 hlen
    · rw [if_neg hcrc]
      exact .mismatch _ _ (Ne.symm hcrc)
  · rw [if_neg hutf8]
    exact .illFormed _ (by simpa using hutf8) hlen

/-- DECODE's steps in their order lead to one of these answers (R130). -/
theorem decodeResult_answer (c : Config) (t : CrcTable) (s : List CharCode) :
    DecodeAnswer c s (responseOf (decodeResult c t s)) := by
  unfold decodeResult
  by_cases hempty : s.length = 0
  · simpa only [hempty, if_true] using .empty
  rw [if_neg hempty]
  cases hver : (detect s.length).version with
  | empty => exact absurd hver (detect_version_ne_empty _)
  | unknown => simpa using .format
  | v1 =>
    obtain ⟨hmin, hmax⟩ := length_of_detect_v1 hver
    obtain ⟨hok, hsym⟩ | ⟨code, pos, herr, hbad⟩ := requireSymbols_cases s
    · simpa [hok] using decodeV1_answer c hsym hmin hmax
    · simpa [herr] using .badSymbol code pos hbad
  | v2 =>
    have hmin := length_of_detect_v2 hver
    obtain ⟨hok, hsym⟩ | ⟨code, pos, herr, hbad⟩ := requireSymbols_cases s
    · have hmain : 4 ≤ (s.take (s.length - 16)).length := by rw [List.length_take]; omega
      have hblock : (s.drop (s.length - 16)).length = 16 := by rw [List.length_drop]; omega
      simpa [hok] using decodeV2_answer c t (fun x hx => hsym x (List.mem_of_mem_take hx)) hmain
        (fun x hx => hsym x (List.mem_of_mem_drop hx)) hblock
    · simpa [herr] using .badSymbol code pos hbad

/-! ### The answers meet the invariant -/

/-- The score is 100 less the deductions of the issue bits (R155). -/
theorem score_add_deductions : ∀ dist short pattern : Bool,
    (score dist short pattern).toNat + 20 * ((issueBits dist short pattern).getLsbD 0).toNat
      + 10 * ((issueBits dist short pattern).getLsbD 1).toNat
      + 15 * ((issueBits dist short pattern).getLsbD 2).toNat = 100 := by
  decide

/-- An answer of symbols alone can be carried by every configuration. -/
theorem symbols_wf {c : Config} (hc : c.wf = true) {out : List CharCode}
    (h : ∀ code ∈ out, isSymbol code = true) : (Response.symbols out).WF c :=
  fun code hcode => ⟨h code hcode, charFits_of_isSymbol hc (h code hcode)⟩

theorem DecodeAnswer.wf {c : Config} {s : List CharCode} (hfits : s.all c.charFits = true) {r : Response}
    (h : DecodeAnswer c s r) : r.WF c := by
  cases h with
  | empty => exact .inl ⟨rfl, rfl, rfl⟩
  | format => trivial
  | badSymbol code pos hbad => exact firstNonSymbol_payload hfits hbad
  | illFormed out hutf8 hlen => exact ⟨hutf8, hlen⟩
  | v1 out hutf8 hlen hshort => exact .inr (.inl ⟨rfl, rfl, hlen, hshort, hutf8⟩)
  | mismatch expected actual hne => exact hne
  | v2 out hutf8 hlen => exact .inr (.inr ⟨rfl, rfl, hlen, hutf8⟩)

/-- An operation that can exist is answered with a response the block can give. -/
theorem answer_wf {c : Config} (hc : c.wf = true) (t : CrcTable) {i : Instr} (hi : i.wf c = true) :
    (answer c t i).WF c := by
  cases i with
  | crcTblrd index =>
    obtain h | ⟨w, h⟩ := answer_crcTblrd_cases c t index <;> rw [h] <;> trivial
  | crcCalc bytes => trivial
  | crcTosym checksum => exact symbols_wf hc fun _ => isSymbol_of_mem_toSymbols
  | symPack bytes => exact symbols_wf hc fun _ => isSymbol_of_mem_pack
  | encode bytes => exact symbols_wf hc fun _ => isSymbol_of_mem_ciphertextOf
  | crcFromsym chars =>
    obtain ⟨-, hfits⟩ := Bool.and_eq_true_iff.1 hi
    obtain ⟨w, h⟩ | h | ⟨code, pos, h, hbad⟩ := answer_crcFromsym_cases c t chars <;> rw [h]
    · trivial
    · trivial
    · exact firstNonSymbol_payload hfits hbad
  | symUnpack chars =>
    obtain ⟨-, hfits⟩ := Bool.and_eq_true_iff.1 hi
    obtain h | ⟨code, pos, h, hbad⟩ := answer_symUnpack_cases c t chars <;> rw [h]
    · trivial
    · exact firstNonSymbol_payload hfits hbad
  | decode chars =>
    obtain ⟨-, hfits⟩ := Bool.and_eq_true_iff.1 hi
    exact (decodeResult_answer c t chars).wf hfits
  | detect chars => exact detect_wf chars.length
  | validate chars =>
    obtain ⟨-, hfits⟩ := Bool.and_eq_true_iff.1 hi
    obtain h | h | ⟨code, pos, h, hbad⟩ := answer_validate_cases c t chars <;> rw [h]
    · trivial
    · trivial
    · exact firstNonSymbol_payload hfits hbad
  | quality chars => exact score_add_deductions _ _ _

end Sys2Proof.Machine
end

section
/-! The frame of the operations and of the step, and the invariant (R13, R17, R21, R40, R205). -/

namespace Sys2Proof.Machine

/-! ### What a step can do -/

/-- The response the block gives to an accepted record: the answer of the operation it decodes to, or BAD_COMMAND for
a reserved word (R64). -/
def AnswersRecord (c : Config) (t : CrcTable) (r : Command) (x : Response) : Prop :=
  (∃ i, decode c r = .ok i ∧ x = answer c t i) ∨ (decode c r = .error .reserved ∧ x = .error .badCommand)

/-- The states a step can leave, one case per host event and one for none. -/
inductive StepResult (s : State) : State → Prop
  | idle (hhost : s.host = []) : StepResult s s
  | answered (k : Nat) (r : Command) (rest : List HostEvent) (x : Response) (hhost : s.host = .issue k r :: rest)
      (hlane : k < s.lanes.length) (hx : AnswersRecord s.config s.table r x) :
      StepResult s ((State.onLane { s with host := rest } k).respond x)
  | taken (k : Nat) (rest : List HostEvent) (hhost : s.host = .take k :: rest) (hlane : k < s.lanes.length) :
      StepResult s (State.take { s with host := rest } k)
  | reset (rest : List HostEvent) (hhost : s.host = .reset :: rest) :
      StepResult s (State.resetEvent { s with host := rest })

/-- Every next state the step answers is one of these. -/
theorem stepResult_of_step {s t : State} (h : step s = .next t) : StepResult s t := by
  obtain ⟨hhost, rfl⟩ | ⟨e, rest, hhost, hhandle⟩ := step_cases s t h
  · exact .idle hhost
  · obtain ⟨k, r, rfl, hlane, hperform⟩ | ⟨k, rfl, hlane, rfl⟩ | ⟨rfl, rfl⟩ := handle_cases _ _ t hhandle
    · obtain ⟨i, hdecode, rfl⟩ | ⟨hdecode, rfl⟩ := perform_cases r _ t hperform
      · exact .answered k r rest _ hhost hlane (.inl ⟨i, hdecode, rfl⟩)
      · exact .answered k r rest _ hhost hlane (.inr ⟨hdecode, rfl⟩)
    · exact .taken k rest hhost hlane
    · exact .reset rest hhost

/-- The response to a record is one the block can give: what decodes is well formed, and BAD_COMMAND carries nothing. -/
theorem AnswersRecord.wf {c : Config} {t : CrcTable} {r : Command} {x : Response} (hc : c.wf = true)
    (h : AnswersRecord c t r x) : x.WF c := by
  obtain ⟨i, hdecode, rfl⟩ | ⟨-, rfl⟩ := h
  · obtain ⟨hi, -, -⟩ := decode_sound hdecode
    exact answer_wf hc t hi
  · trivial

/-! ### Each change of the state keeps the invariant -/

/-- What holds of every lane holds of every lane after one of them is changed by a function that keeps it. -/
theorem forall_mem_modify {α : Type} {P : α → Prop} {f : α → α} {l : List α} (hl : ∀ x ∈ l, P x)
    (hf : ∀ x, P x → P (f x)) (k : Nat) : ∀ x ∈ l.modify k f, P x := by
  intro x hx
  obtain ⟨j, hj⟩ := List.mem_iff_getElem?.1 hx
  rw [List.getElem?_modify] at hj
  obtain ⟨y, hy, rfl⟩ := Option.map_eq_some_iff.1 hj
  have hPy := hl y (List.mem_of_getElem? hy)
  split
  · exact hf y hPy
  · exact hPy

namespace State.WF

/-- The host's events are no part of the invariant. -/
theorem withHost {s : State} (h : s.WF) (events : List HostEvent) : State.WF { s with host := events } :=
  ⟨h.config, h.table, h.lanes, h.active, h.responses⟩

theorem onLane {s : State} (h : s.WF) {k : Nat} (hk : k < s.lanes.length) : (s.onLane k).WF :=
  ⟨h.config, h.table, h.lanes, hk, h.responses⟩

theorem respond {s : State} (h : s.WF) {r : Response} (hr : r.WF s.config) : (s.respond r).WF where
  config := h.config
  table := h.table
  lanes := by rw [State.respond_lanes, List.length_modify]; exact h.lanes
  active := by rw [State.respond_lanes, List.length_modify]; exact h.active
  responses := forall_mem_modify h.responses
    (fun l hl x hx => by
      rw [Lane.deliver_responses] at hx
      obtain hold | hnew := List.mem_append.1 hx
      · exact hl x hold
      · rw [List.mem_singleton.1 hnew]; exact hr)
    s.active

theorem take {s : State} (h : s.WF) (k : Nat) : (s.take k).WF where
  config := h.config
  table := h.table
  lanes := by rw [State.take_lanes, List.length_modify]; exact h.lanes
  active := by rw [State.take_lanes, List.length_modify]; exact h.active
  responses := forall_mem_modify h.responses (fun _ _ _ hx => absurd hx List.not_mem_nil) k

theorem resetEvent {s : State} (h : s.WF) : s.resetEvent.WF :=
  (State.resetWith_wf h.config).withHost s.host

end State.WF

/-- The invariant is kept by whatever a step can do. -/
theorem StepResult.wf {s t : State} (hs : s.WF) (h : StepResult s t) : t.WF := by
  cases h with
  | idle => exact hs
  | answered k r rest x _ hlane hx => exact ((hs.withHost rest).onLane hlane).respond (hx.wf hs.config)
  | taken k rest => exact (hs.withHost rest).take k
  | reset rest => exact (hs.withHost rest).resetEvent

end Sys2Proof.Machine

namespace Sys2Proof.Proofs.StateFrame

open Sys2Proof.Machine

/-- Settles O4: every change a step can make keeps the invariant, since every answer is one the block can give. -/
theorem everyStepKeepsTheInvariant : Obligations.EveryStepKeepsTheInvariant :=
  fun _ _ hs hstep => (stepResult_of_step hstep).wf hs

/-- Settles O5, by the cases of a step: only reset writes TABLE. -/
theorem noStepButResetWritesTheTable : Obligations.NoStepButResetWritesTheTable := by
  intro s t hstep
  cases stepResult_of_step hstep with
  | idle => exact ⟨rfl, .inl rfl⟩
  | answered => exact ⟨State.respond_config _ _, .inl (State.respond_table _ _)⟩
  | taken => exact ⟨State.take_config _ _, .inl (State.take_table _ _)⟩
  | reset rest hhost => exact ⟨State.resetEvent_config _, .inr ⟨rest, hhost, State.resetEvent_table _⟩⟩

/-- Settles O17: `exec` only delivers a response, so its frame is that of `State.respond`. -/
theorem operationsChangeOnlyTheirOwnLane : Obligations.OperationsChangeOnlyTheirOwnLane := by
  intro i s t hexec
  rw [exec_eq_respond] at hexec
  obtain rfl : s.respond (answer s.config s.table i) = t := by simpa using hexec
  refine ⟨State.respond_config _ _, State.respond_table _ _, State.respond_host _ _, State.respond_active _ _,
    ?length, fun k hk => State.respond_lane_other s _ k hk, fun l hl => ⟨_, State.respond_lane_active s _ l hl⟩⟩
  case length => rw [State.respond_lanes, List.length_modify]

/-- Settles O18: the response is `answer`, which is given the parameters, TABLE and the operation alone. -/
theorem responsesDependOnCommandAndTableOnly : Obligations.ResponsesDependOnCommandAndTableOnly := by
  intro i s s' hconfig htable
  refine ⟨answer s.config s.table i, exec_eq_respond i s, ?_⟩
  rw [hconfig, htable]
  exact exec_eq_respond i s'

end Sys2Proof.Proofs.StateFrame
end

section
/-! The record a response becomes: its fields and the rows of R18. -/

namespace Sys2Proof.Machine

open Sys2Proof.Reference

/-- The numbers of R67 are the codes of the record. -/
theorem versionNumber_eq_code (v : Version) : versionNumber v = v.code := by
  cases v <;> rfl

/-- The status of a response is the one in its record (R66). -/
theorem fields_status (r : Response) : r.fields.status = r.status := by
  cases r with
  | validated v => cases v <;> rfl
  | error e => cases e <;> rfl
  | value | symbols | bytes | decoded | detected | scored => rfl

/-- Each field of the record holds the value the response carries (R17, R66 to R68). -/
theorem carries_fields (r : Response) : Carries r r.fields := by
  cases r with
  | value | symbols | bytes | scored => simp [Carries, Response.fields]
  | decoded | detected => simp [Carries, Response.fields, versionNumber_eq_code]
  | validated v => cases v <;> simp [Carries, Response.fields, Verdict.fields, Verdict.isValid, Verdict.reasonCode]
  | error e => cases e <;> simp [Carries, Response.fields, OpError.fields, OpError.status]

/-- `out_len` counts the bytes of `OUT`. -/
theorem fields_outLen_of_outBytes {r : Response} {out : List Byte} (h : r.fields.outBytes = some out) :
    r.fields.outLen = some out.length := by
  cases r with
  | bytes | decoded => cases h; rfl
  | validated v => cases v <;> cases h
  | error e => cases e <;> cases h; rfl
  | value | symbols | detected | scored => cases h

/-- `out_len` counts the characters of `OUT`. -/
theorem fields_outLen_of_outChars {r : Response} {out : List CharCode} (h : r.fields.outChars = some out) :
    r.fields.outLen = some out.length := by
  cases r with
  | symbols => cases h; rfl
  | validated v => cases v <;> cases h
  | error e => cases e <;> cases h
  | value | bytes | decoded | detected | scored => cases h

/-! ### The row of R18 a response belongs to -/

/-- The status of a response and the names of the fields present with it. (The rows below open `fieldsPresent` by
`delta`: with its seventeen parts, its equation lemma is costly to make.) -/
def rowOf (r : Response) : BitVec 4 × List String := (r.fields.status, fieldsPresent r.fields)

@[simp] theorem rowOf_value (w : Word) : rowOf (.value w) = (0, ["value"]) := by
  delta rowOf fieldsPresent; simp [Response.fields]
@[simp] theorem rowOf_symbols (out : List CharCode) : rowOf (.symbols out) = (0, ["out_len", "OUT characters"]) := by
  delta rowOf fieldsPresent; simp [Response.fields]
@[simp] theorem rowOf_bytes (out : List Byte) : rowOf (.bytes out) = (0, ["out_len", "OUT bytes"]) := by
  delta rowOf fieldsPresent; simp [Response.fields]
@[simp] theorem rowOf_decoded (out : List Byte) (verified : Bool) (version : Version) :
    rowOf (.decoded out verified version) = (0, ["out_len", "OUT bytes", "verified", "version"]) := by
  delta rowOf fieldsPresent; simp [Response.fields]
@[simp] theorem rowOf_detected (d : Detection) :
    rowOf (.detected d) = (0, ["version", "has_crc", "main_len", "crc_len", "is_valid"]) := by
  delta rowOf fieldsPresent; simp [Response.fields]
@[simp] theorem rowOf_validated_valid : rowOf (.validated .valid) = (0, ["is_valid", "reason"]) := by
  delta rowOf fieldsPresent; simp [Response.fields, Verdict.fields]
@[simp] theorem rowOf_validated_empty : rowOf (.validated .empty) = (0, ["is_valid", "reason"]) := by
  delta rowOf fieldsPresent; simp [Response.fields, Verdict.fields]
@[simp] theorem rowOf_validated_badChar (code : CharCode) (pos : Nat) :
    rowOf (.validated (.badChar code pos)) = (0, ["is_valid", "reason", "err_char", "err_pos"]) := by
  delta rowOf fieldsPresent; simp [Response.fields, Verdict.fields]
@[simp] theorem rowOf_scored (quality : BitVec 7) (issues : BitVec 3) :
    rowOf (.scored quality issues) = (0, ["quality", "issues"]) := by
  delta rowOf fieldsPresent; simp [Response.fields]
@[simp] theorem rowOf_format : rowOf (.error .format) = (2, []) := by
  delta rowOf fieldsPresent; simp [Response.fields, OpError.fields, OpError.status]
@[simp] theorem rowOf_validation (code : CharCode) (pos : Nat) :
    rowOf (.error (.validation code pos)) = (3, ["err_char", "err_pos"]) := by
  delta rowOf fieldsPresent; simp [Response.fields, OpError.fields, OpError.status]
@[simp] theorem rowOf_decoding (out : List Byte) : rowOf (.error (.decoding out)) = (4, ["out_len", "OUT bytes"]) := by
  delta rowOf fieldsPresent; simp [Response.fields, OpError.fields, OpError.status]
@[simp] theorem rowOf_integrity (expected actual : Word) :
    rowOf (.error (.integrity expected actual)) = (5, ["expected", "actual"]) := by
  delta rowOf fieldsPresent; simp [Response.fields, OpError.fields, OpError.status]
@[simp] theorem rowOf_length : rowOf (.error .length) = (6, []) := by
  delta rowOf fieldsPresent; simp [Response.fields, OpError.fields, OpError.status]
@[simp] theorem rowOf_badCommand : rowOf (.error .badCommand) = (7, []) := by
  delta rowOf fieldsPresent; simp [Response.fields, OpError.fields, OpError.status]

/-- Every answer belongs to a row R18 lists for its operation. -/
theorem rowOf_answer_mem (c : Config) (t : CrcTable) (i : Instr) : rowOf (answer c t i) ∈ responseRows i := by
  cases i with
  | crcCalc | crcTosym | symPack | encode | detect | quality => simp [answer, responseRows]
  | crcTblrd index =>
    obtain h | ⟨w, h⟩ := answer_crcTblrd_cases c t index <;> simp [h, responseRows]
  | crcFromsym chars =>
    obtain ⟨w, h⟩ | h | ⟨code, pos, h, -⟩ := answer_crcFromsym_cases c t chars <;> simp [h, responseRows]
  | symUnpack chars =>
    obtain h | ⟨code, pos, h, -⟩ := answer_symUnpack_cases c t chars <;> simp [h, responseRows]
  | decode chars =>
    obtain ⟨r, h⟩ : ∃ r, answer c t (.decode chars) = r := ⟨_, rfl⟩
    have hr : DecodeAnswer c chars r := h ▸ decodeResult_answer c t chars
    rw [h]
    cases hr <;> simp [responseRows]
  | validate chars =>
    obtain h | h | ⟨code, pos, h, -⟩ := answer_validate_cases c t chars <;> simp [h, responseRows]

/-- VALIDATE gives a character exactly when its reason is BAD_CHAR (R68, R151). -/
theorem validate_errChar_iff (c : Config) (t : CrcTable) (chars : List CharCode) :
    (answer c t (.validate chars)).fields.errChar.isSome = true ↔
      (answer c t (.validate chars)).fields.reason = some 2#2 := by
  obtain h | h | ⟨code, pos, h, -⟩ := answer_validate_cases c t chars <;>
    simp [h, Response.fields, Verdict.fields, Verdict.reasonCode]

/-- CRC.TOSYM gives 16 characters (R86, R87). -/
theorem crcTosym_outLen (c : Config) (t : CrcTable) (checksum : Word) :
    (answer c t (.crcTosym checksum)).fields.outLen = some 16 :=
  congrArg some (toSymbols_length checksum)

end Sys2Proof.Machine

namespace Sys2Proof.Proofs.ResponseRecords

open Sys2Proof.Machine

/-- Settles O21: the fields follow the response's shape, and each operation's answers are cases of its rows. -/
theorem responsesHaveTheListedShapes : Obligations.ResponsesHaveTheListedShapes := by
  refine ⟨fun r => ⟨carries_fields r, (fields_status r).symm⟩, fun i s => ?_⟩
  refine ⟨answer s.config s.table i, exec_eq_respond i s, rowOf_answer_mem _ _ i,
    fun _ => fields_outLen_of_outBytes, fun _ => fields_outLen_of_outChars, ?tosym, ?validate⟩
  case tosym =>
    rintro checksum rfl
    exact crcTosym_outLen _ _ checksum
  case validate =>
    rintro chars rfl
    exact validate_errChar_iff _ _ chars

end Sys2Proof.Proofs.ResponseRecords
end

section
/-! Commands one after another, on one lane or on two: the step of an issued record in both directions, and what a
lane then holds (R40, R43, R182). -/

namespace Sys2Proof.Machine

/-! ### The step of an issued record -/

/-- The block after the record issued to lane `k` was answered with `x`, with `rest` still to come. -/
def State.afterIssue (s : State) (k : Nat) (rest : List HostEvent) (x : Response) : State :=
  (State.onLane { s with host := rest } k).respond x

section
variable (s : State) (k : Nat) (rest : List HostEvent) (x : Response)

@[simp] theorem State.afterIssue_config : (s.afterIssue k rest x).config = s.config := rfl
@[simp] theorem State.afterIssue_table : (s.afterIssue k rest x).table = s.table := rfl
@[simp] theorem State.afterIssue_host : (s.afterIssue k rest x).host = rest := rfl
@[simp] theorem State.afterIssue_lanes :
    (s.afterIssue k rest x).lanes = s.lanes.modify k (Lane.deliver x) := rfl

/-- The block has the lanes it had. -/
theorem State.afterIssue_lanes_length : (s.afterIssue k rest x).lanes.length = s.lanes.length := by
  rw [State.afterIssue_lanes, List.length_modify]

end

/-- A record that has an answer is performed by delivering it. -/
theorem perform_of_answersRecord {s : State} {r : Command} {x : Response}
    (h : AnswersRecord s.config s.table r x) : perform r s = .next (s.respond x) := by
  obtain ⟨i, hdecode, rfl⟩ | ⟨hdecode, rfl⟩ := h
  · rw [perform_of_decode_ok hdecode, exec_eq_respond]
  · simp [perform, hdecode]

/-- The step of an issued record: it runs exactly when the lane exists and the record has an answer. -/
theorem step_issue_iff {s t : State} {k : Nat} {r : Command} {rest : List HostEvent}
    (hhost : s.host = .issue k r :: rest) :
    step s = .next t ↔
      k < s.lanes.length ∧ ∃ x, AnswersRecord s.config s.table r x ∧ t = s.afterIssue k rest x := by
  constructor
  · intro h
    cases stepResult_of_step h with
    | answered k' r' rest' x hhost' hlane hx =>
      cases hhost.symm.trans hhost'
      exact ⟨hlane, x, hx, rfl⟩
    | idle hhost' => cases hhost.symm.trans hhost'
    | taken _ _ hhost' => cases hhost.symm.trans hhost'
    | reset _ hhost' => cases hhost.symm.trans hhost'
  · rintro ⟨hlane, x, hx, rfl⟩
    calc step s
        = handle (.issue k r) { s with host := rest } := step_event s _ rest hhost
      _ = perform r (State.onLane { s with host := rest } k) := handle_issue r hlane
      _ = .next (s.afterIssue k rest x) := perform_of_answersRecord hx

/-! ### What the lanes hold -/

/-- A lane that was issued a record holds its answer after what it held before. -/
theorem State.afterIssue_lane (s : State) {k : Nat} (rest : List HostEvent) (x : Response) {l : Lane}
    (h : s.lanes[k]? = some l) : (s.afterIssue k rest x).lanes[k]? = some (l.deliver x) := by
  simp [h]

/-- Changes of two different elements commute. -/
theorem modify_modify_comm {α : Type} {a b : Nat} (hab : a ≠ b) (f g : α → α) (l : List α) :
    (l.modify a f).modify b g = (l.modify b g).modify a f := by
  refine List.ext_getElem? fun j => ?_
  obtain rfl | hja := eq_or_ne j a
  · simp [Ne.symm hab]
  · simp [List.getElem?_modify, Ne.symm hja]

/-- Records issued to different lanes leave the same lanes in either order. -/
theorem State.afterIssue_lanes_comm (s : State) {a b : Nat} (hab : a ≠ b) (ra rb ra' rb' : List HostEvent)
    (x y : Response) :
    ((s.afterIssue a ra x).afterIssue b rb y).lanes = ((s.afterIssue b rb' y).afterIssue a ra' x).lanes :=
  modify_modify_comm hab _ _ _

end Sys2Proof.Machine

namespace Sys2Proof.Proofs.Lanes

open Sys2Proof.Machine

/-- Settles O19: each record's answer is fixed by the parameters and TABLE, which the other leaves alone, and
deliveries to different lanes commute. -/
theorem lanesDoNotInterfere : Obligations.LanesDoNotInterfere := by
  intro s u t a b x y rest hab hhost hfirst hsecond
  obtain ⟨ha, xa, hxa, rfl⟩ := (step_issue_iff hhost).1 hfirst
  obtain ⟨hb, yb, hyb, rfl⟩ := (step_issue_iff (State.afterIssue_host ..)).1 hsecond
  rw [State.afterIssue_lanes_length] at hb
  refine ⟨_, _, (step_issue_iff (rest := .issue a x :: rest) rfl).2 ⟨hb, yb, hyb, rfl⟩,
    (step_issue_iff (rest := rest) rfl).2 ⟨?lane, xa, hxa, rfl⟩, ?lanes, rfl, rfl, rfl⟩
  case lane => rw [State.afterIssue_lanes_length]; exact ha
  case lanes => exact (s.afterIssue_lanes_comm hab _ _ _ _ xa yb).symm

/-- Settles O20: the first command leaves the parameters and TABLE alone, so the second has the same answer without
it, and a lane keeps what it held before a delivery. -/
theorem earlierCommandsLeaveNothingBehind : Obligations.EarlierCommandsLeaveNothingBehind := by
  intro s u t k k' x y rest l l' hhost hfirst hsecond hl hl'
  obtain ⟨-, xa, -, rfl⟩ := (step_issue_iff hhost).1 hfirst
  obtain ⟨hk', r, hr, rfl⟩ := (step_issue_iff (State.afterIssue_host ..)).1 hsecond
  rw [State.afterIssue_lanes_length] at hk'
  exact ⟨_, r, (step_issue_iff rfl).2 ⟨hk', r, hr, rfl⟩, State.afterIssue_lane _ rest r hl',
    State.afterIssue_lane { s with host := .issue k' y :: rest } rest r hl⟩

end Sys2Proof.Proofs.Lanes
end

section
/-! Reserved command words: the converse of `decodeAccepted_reserved`, and the step that answers them (R64, R65). -/

namespace Sys2Proof

/-- No reader of IN calls a record reserved: its only complaint is an element that does not fit. -/
theorem map_ne_reserved_of_error {α β : Type} {x : Except DecodeError α} (f : α → β)
    (h : ∀ e, x = .error e → e = .malformedInput) : x.map f ≠ .error .reserved := by
  cases x with
  | ok a => exact nofun
  | error e => rw [h e rfl]; exact nofun

/-- An accepted record is reserved exactly by its command word (R64). -/
theorem decodeAccepted_eq_reserved_iff (c : Config) (r : Command) :
    decodeAccepted c r = .error .reserved ↔ r.cmd.toNat = 0 ∨ 12 ≤ r.cmd.toNat := by
  refine ⟨fun h => ?_, decodeAccepted_reserved c r⟩
  obtain ⟨cmd, arg, input⟩ := r
  cases cmd using commandWord_cases with
  | reserved w hw => exact hw
  | crcTblrd | crcTosym =>
    simp only [decodeAccepted_crcTblrd, decodeAccepted_crcTosym] at h
    cases h
  | crcCalc | symPack | encode =>
    simp only [decodeAccepted_crcCalc, decodeAccepted_symPack, decodeAccepted_encode] at h
    exact absurd h (map_ne_reserved_of_error _ (readBytes_error input))
  | crcFromsym | symUnpack | decode | detect | validate | quality =>
    simp only [decodeAccepted_crcFromsym, decodeAccepted_symUnpack, decodeAccepted_decode, decodeAccepted_detect,
      decodeAccepted_validate, decodeAccepted_quality] at h
    exact absurd h (map_ne_reserved_of_error _ (readChars_error c input))

/-- A record is answered as reserved exactly when it is accepted and its word is reserved (R64, R207). -/
theorem decode_eq_reserved_iff (c : Config) (r : Command) :
    decode c r = .error .reserved ↔ c.accepts r.inLen = true ∧ (r.cmd.toNat = 0 ∨ 12 ≤ r.cmd.toNat) := by
  cases hacc : c.accepts r.inLen with
  | true => simpa [decode_of_accepted c r hacc] using decodeAccepted_eq_reserved_iff c r
  | false => simp [decode_of_tooLong c r hacc]

/-! ### The words of the opcode table (R61, R62) -/

/-- A word of 8 bits gives the command field alone (log entry 7). -/
theorem commandOfWord_of_lt {w : Nat} (h : w < 256) : commandOfWord 8 w = ⟨BitVec.ofNat 8 w, 0#32, []⟩ := by
  simp [commandOfWord, Nat.mod_eq_of_lt h, Nat.div_eq_of_lt h]

/-- A table word is read as the accepted record of that command word, `MAX_LEN` being unbounded by default. -/
theorem decodeTableWord_of_lt {w : Nat} (h : w < 256) :
    decodeTableWord 8 w = (decodeAccepted Config.spec ⟨BitVec.ofNat 8 w, 0#32, []⟩).toOption := by
  rw [decodeTableWord, commandOfWord_of_lt h, decode_of_accepted Config.spec _ rfl]
  cases decodeAccepted Config.spec ⟨BitVec.ofNat 8 w, 0#32, []⟩ <;> rfl

/-- A reserved word is no operation (R64). -/
theorem decodeTableWord_reserved {w : Nat} (h : w < 256) (hw : w = 0 ∨ 12 ≤ w) : decodeTableWord 8 w = none := by
  rw [decodeTableWord_of_lt h, decodeAccepted_reserved]
  · rfl
  · simpa [Nat.mod_eq_of_lt h] using hw

end Sys2Proof

namespace Sys2Proof.Machine

/-- Lanes other than the one that was issued a record are as they were. -/
theorem State.afterIssue_lane_other (s : State) {j k : Nat} (rest : List HostEvent) (x : Response) (h : j ≠ k) :
    (s.afterIssue k rest x).lanes[j]? = s.lanes[j]? := by
  simp [Ne.symm h]

end Sys2Proof.Machine

namespace Sys2Proof.Proofs.CommandWords

open Sys2Proof.Machine

/-- Settles O11: only the command word makes an accepted record reserved, and the step then delivers BAD_COMMAND. -/
theorem reservedWordsAnswerBadCommand : Obligations.ReservedWordsAnswerBadCommand := by
  refine ⟨fun c r => ?decode, fun s k r rest l hhost hl hlen hword => ?step, rfl⟩
  case decode => rw [decode_eq_reserved_iff, c.accepts_iff]
  case step =>
    have hlane : k < s.lanes.length := (List.getElem?_eq_some_iff.1 hl).1
    have hdecode : decode s.config r = .error .reserved :=
      (decode_eq_reserved_iff s.config r).2 ⟨(s.config.accepts_iff r.inLen).2 hlen, hword⟩
    exact ⟨s.afterIssue k rest (.error .badCommand), (step_issue_iff hhost).2 ⟨hlane, _, .inr ⟨hdecode, rfl⟩, rfl⟩,
      rfl, rfl, rfl, s.afterIssue_lane rest _ hl, fun j hj => s.afterIssue_lane_other rest _ hj⟩

/-- Settles O9: each of the eleven words has its equation in the decoder, and the others are reserved. -/
theorem wordsOfTheOpcodeTable : Obligations.WordsOfTheOpcodeTable := by
  have hbytes : readBytes [] = .ok [] := rfl
  have hchars : readChars Config.spec [] = .ok [] := rfl
  refine ⟨?_, ?_, ?_, ?_, ?_, ?_, ?_, ?_, ?_, ?_, ?_, decodeTableWord_reserved (by decide) (by decide),
    decodeTableWord_reserved (by decide) (by decide), decodeTableWord_reserved (by decide) (by decide),
    decodeTableWord_reserved (by decide) (by decide), decodeTableWord_reserved (by decide) (by decide)⟩
  all_goals
    rw [decodeTableWord_of_lt (by decide)]
    simp [hbytes, hchars, Except.map, Except.toOption]

/-- Settles O23, row by row of R66, R67 and R68. -/
theorem codesOfStatusVersionAndReason : Obligations.CodesOfStatusVersionAndReason :=
  ⟨rfl, rfl, fun _ _ => rfl, fun _ => rfl, fun _ _ => rfl, rfl, rfl, rfl, rfl, rfl, rfl, rfl, rfl, fun _ _ => rfl⟩

end Sys2Proof.Proofs.CommandWords
end

section
/-! SYM.PACK and ENCODE in closed form: each byte becomes its own four symbols (R53, R59, R108, R125). -/

namespace Sys2Proof.Machine

open Sys2Proof.Reference

/-! ### Symbols as numbers -/

/-- The symbol of a group is the one listed under its number (R51, R100). -/
theorem symOf_eq_codeOf : ∀ g : Group, symOf g = codeOf g.toNat := by
  decide

/-- Only the number mod 4 selects a symbol. -/
theorem codeOf_mod (n : Nat) : codeOf (n % 4) = codeOf n := by
  rw [codeOf, Nat.mod_mod, ← codeOf]

/-- The symbol of two neighbouring bits of a word, the lower of them bit `k`. -/
theorem symOf_extractLsb' {w : Nat} (v : BitVec w) (k : Nat) :
    symOf (v.extractLsb' k 2) = codeOf (v.toNat / 2 ^ k) := by
  rw [symOf_eq_codeOf, BitVec.extractLsb'_toNat, Nat.shiftRight_eq_div_pow, ← codeOf_mod (v.toNat / 2 ^ k)]

theorem isSym_iff (code : CharCode) : IsSym code ↔ isSymbol code = true :=
  (isSymbol_iff code).symm

/-! ### The packer, byte by byte -/

/-- A pair of bits is a group, the left one high (R105). -/
theorem ofNat_pair_eq_extractLsb' {w : Nat} (v : BitVec w) (k : Nat) :
    BitVec.ofNat 2 (2 * (v.getLsbD (k + 1)).toNat + (v.getLsbD k).toNat) = v.extractLsb' k 2 := by
  have hpair : ∀ hi lo : Bool, (BitVec.ofNat 2 (2 * hi.toNat + lo.toNat)).getLsbD 0 = lo ∧
      (BitVec.ofNat 2 (2 * hi.toNat + lo.toNat)).getLsbD 1 = hi := by decide
  obtain ⟨hlow, hhigh⟩ := hpair (v.getLsbD (k + 1)) (v.getLsbD k)
  refine BitVec.eq_of_getLsbD_eq fun i hi => ?_
  rw [BitVec.getLsbD_extractLsb']
  interval_cases i
  · simpa using hlow
  · simpa using hhigh

/-- The groups of one byte, bits 7:6 first (R53). -/
theorem bitsToGroups_byteBits (v : Byte) :
    bitsToGroups (byteBits v) =
      [v.extractLsb' 6 2, v.extractLsb' 4 2, v.extractLsb' 2 2, v.extractLsb' 0 2] := by
  have hbits : byteBits v = [v.getLsbD 7, v.getLsbD 6, v.getLsbD 5, v.getLsbD 4, v.getLsbD 3, v.getLsbD 2,
      v.getLsbD 1, v.getLsbD 0] := rfl
  simp only [hbits, bitsToGroups, ofNat_pair_eq_extractLsb' v]

/-- Pairs never straddle the end of a string of even length. -/
theorem bitsToGroups_append (ys : List Bool) :
    ∀ xs : List Bool, xs.length % 2 = 0 → bitsToGroups (xs ++ ys) = bitsToGroups xs ++ bitsToGroups ys
  | [], _ => rfl
  | [_], h => by simp at h
  | hi :: lo :: xs, h => by
    have hxs : xs.length % 2 = 0 := by simp only [List.length_cons] at h; omega
    simp only [List.cons_append, bitsToGroups, bitsToGroups_append ys xs hxs]

@[simp] theorem pack_nil : pack [] = [] := rfl

/-- Whole bytes need no padding bit (R104, R108). -/
theorem pack_eq_map_symOf (bytes : List Byte) : pack bytes = (bitsToGroups (bytesToBits bytes)).map symOf := by
  rw [pack, padEven_bytesToBits]

/-- A byte in front adds its four symbols in front: no group holds bits of two bytes. -/
theorem pack_cons (v : Byte) (bytes : List Byte) : pack (v :: bytes) = byteSymbols v ++ pack bytes := by
  rw [pack_eq_map_symOf, pack_eq_map_symOf, bytesToBits_cons, bitsToGroups_append _ _ (by rw [byteBits_length]),
    List.map_append, bitsToGroups_byteBits]
  simp [byteSymbols, symOf_extractLsb']

/-- The packer lays out byte after byte (R54, R108). -/
theorem pack_eq_packed (bytes : List Byte) : pack bytes = packed bytes := by
  induction bytes with
  | nil => rfl
  | cons v bytes ih => rw [pack_cons, ih, packed, packed, List.flatMap_cons]

theorem packed_append (xs ys : List Byte) : packed (xs ++ ys) = packed xs ++ packed ys :=
  List.flatMap_append

theorem packed_length (bytes : List Byte) : (packed bytes).length = 4 * bytes.length := by
  induction bytes with
  | nil => rfl
  | cons v bytes ih =>
    rw [packed, List.flatMap_cons, List.length_append, ← packed, ih, List.length_cons]
    simp [byteSymbols]
    omega

theorem pack_length (bytes : List Byte) : (pack bytes).length = 4 * bytes.length := by
  rw [pack_eq_packed, packed_length]

/-! ### The ciphertext -/

@[simp] theorem ciphertextOf_nil (t : CrcTable) : ciphertextOf t [] = [] := rfl

/-- The ciphertext of a non-empty sequence is main cipher and checksum block (R125). -/
theorem ciphertextOf_of_ne_nil (t : CrcTable) {bytes : List Byte} (h : bytes ≠ []) :
    ciphertextOf t bytes = pack bytes ++ toSymbols (crc t bytes) :=
  if_neg (mt List.length_eq_zero_iff.1 h)

/-- The length law of R59. -/
theorem ciphertextOf_length (t : CrcTable) {bytes : List Byte} (h : bytes ≠ []) :
    (ciphertextOf t bytes).length = 4 * bytes.length + 16 := by
  rw [ciphertextOf_of_ne_nil t h, List.length_append, pack_length, toSymbols_length]

end Sys2Proof.Machine

namespace Sys2Proof.Proofs.Encoding

open Sys2Proof.Machine Sys2Proof.Reference

/-- SYM.PACK answers the main cipher (R110). -/
theorem exec_symPack_eq_packed (s : State) (bytes : List Byte) :
    exec (.symPack bytes) s = .next (s.respond (.symbols (packed bytes))) := by
  rw [exec_eq_respond, answer, pack_eq_packed]

/-- Settles O34: the packer is the closed form, and the corner values are computed from it. -/
theorem symPackLaysOutEveryByte : Obligations.SymPackLaysOutEveryByte := by
  refine ⟨exec_symPack_eq_packed, packed_length, fun xs ys => ?append, fun s => ?corners,
    fun c arg bytes hacc => ?decode⟩
  case append => simp only [pack_eq_packed, packed_append]
  case corners =>
    simp only [exec_symPack_eq_packed]
    exact ⟨rfl, rfl, rfl, rfl, rfl, rfl⟩
  case decode =>
    have hlen : c.accepts (Command.inLen ⟨0x05#8, arg, bytes.map BitVec.toNat⟩) = true := by
      simpa [Command.inLen] using hacc
    rw [decode_of_accepted c _ hlen, decodeAccepted_symPack, readBytes_map_toNat]
    rfl

/-- Settles O40: four symbols a byte and sixteen of the block, all of them images of the mapper. -/
theorem encodeObeysItsLengthAndAlphabetLaws : Obligations.EncodeObeysItsLengthAndAlphabetLaws := by
  intro s bytes
  refine ⟨ciphertextOf s.table bytes, exec_eq_respond _ s, ?empty, ciphertextOf_length s.table, ?alphabet⟩
  case empty => rintro rfl; rfl
  case alphabet => exact fun code hcode => (isSym_iff code).2 (isSymbol_of_mem_ciphertextOf hcode)

/-- ENCODE of a non-empty sequence in terms of the three other operations' results (R71, R125). -/
theorem exec_encode_of_ne_nil (s : State) {bytes : List Byte} (h : bytes ≠ []) :
    exec (.encode bytes) s = .next (s.respond (.symbols (pack bytes ++ toSymbols (crc s.table bytes)))) := by
  rw [exec_eq_respond, answer, ciphertextOf_of_ne_nil s.table h]

/-- Settles O39; the example needs only the checksum of its two bytes, the layout being computed. -/
theorem encodeIsPackThenChecksumBlock : Obligations.EncodeIsPackThenChecksumBlock := by
  refine ⟨fun s bytes h => ?parts, fun s => exec_eq_respond _ s, fun s htable => ?vector⟩
  case parts =>
    exact ⟨pack bytes, crc s.table bytes, toSymbols (crc s.table bytes), exec_eq_respond _ s, exec_eq_respond _ s,
      exec_eq_respond _ s, exec_encode_of_ne_nil s h⟩
  case vector =>
    have hcrc : crc buildTable [72#8, 105#8] = 0x4D170E0E#32 := by decide +kernel
    rw [exec_encode_of_ne_nil s (List.cons_ne_nil _ _), htable, hcrc, pack_eq_packed]
    rfl

end Sys2Proof.Proofs.Encoding
end

section
/-! SYM.UNPACK, lane by lane: a byte is the sum of its four lanes, each set by one symbol (R53, R109, R112). -/

namespace Sys2Proof.Machine

open Sys2Proof.Reference

/-! ### One byte from four symbols -/

/-- The group of a symbol; 0 for any other code, which no rule reads. -/
def groupFor (code : CharCode) : Group := (groupOf code).getD 0#2

theorem groupOf_of_isSymbol {code : CharCode} (h : isSymbol code = true) : groupOf code = some (groupFor code) := by
  rw [← groupOf_isSome] at h
  obtain ⟨g, hg⟩ := Option.isSome_iff_exists.1 h
  rw [groupFor, hg, Option.getD_some]

/-- The mapper gives a symbol back from its group (R101). -/
theorem symOf_groupFor {code : CharCode} (h : isSymbol code = true) : symOf (groupFor code) = code := by
  rcases (isSymbol_iff code).1 h with rfl | rfl | rfl | rfl <;> rfl

/-- Different symbols have different groups. -/
theorem groupFor_injOn {a b : CharCode} (ha : isSymbol a = true) (hb : isSymbol b = true)
    (h : groupFor a = groupFor b) : a = b := by
  rw [← symOf_groupFor ha, h, symOf_groupFor hb]

/-- A group at its place in a byte: lane 0 is bits 7:6, lane 3 is bits 1:0 (R112). -/
def inLane (lane : Nat) (g : Group) : Byte := g.setWidth 8 <<< (2 * (3 - lane))

/-- A lane is filled bit by bit. -/
theorem inLane_xor (lane : Nat) (g h : Group) : inLane lane (g ^^^ h) = inLane lane g ^^^ inLane lane h := by
  simp only [inLane, BitVec.setWidth_xor, BitVec.shiftLeft_xor_distrib]

/-- No group but 0 leaves its lane empty. -/
theorem inLane_ne_zero {lane : Nat} (hlane : lane < 4) {g : Group} (hg : g ≠ 0#2) : inLane lane g ≠ 0#8 := by
  revert g
  interval_cases lane <;> decide

/-- A group in a lane sets no bit outside that lane. -/
theorem inLane_and_not_mask {lane : Nat} (hlane : lane < 4) (g : Group) :
    inLane lane g &&& ~~~ (BitVec.ofNat 8 (3 * 4 ^ (3 - lane))) = 0#8 := by
  revert g
  interval_cases lane <;> decide

/-- The byte that four symbols carry (R60, R109). -/
def byteOfSymbols (a b c d : CharCode) : Byte :=
  inLane 0 (groupFor a) ^^^ inLane 1 (groupFor b) ^^^ inLane 2 (groupFor c) ^^^ inLane 3 (groupFor d)

/-- The bits of four groups in order are the bits of their byte (R106, R107). -/
theorem byteOfBits_groups : ∀ g0 g1 g2 g3 : Group,
    byteOfBits (g0.getLsbD 1) (g0.getLsbD 0) (g1.getLsbD 1) (g1.getLsbD 0) (g2.getLsbD 1) (g2.getLsbD 0)
      (g3.getLsbD 1) (g3.getLsbD 0) = inLane 0 g0 ^^^ inLane 1 g1 ^^^ inLane 2 g2 ^^^ inLane 3 g3 := by
  decide +kernel

theorem groupsOf_cons {code : CharCode} (h : isSymbol code = true) (s : List CharCode) :
    groupsOf (code :: s) = groupFor code :: groupsOf s :=
  List.filterMap_cons_some (groupOf_of_isSymbol h)

/-- Four symbols in front add their byte in front. -/
theorem unpack_cons_four {a b c d : CharCode} (ha : isSymbol a = true) (hb : isSymbol b = true)
    (hc : isSymbol c = true) (hd : isSymbol d = true) (rest : List CharCode) :
    unpack (a :: b :: c :: d :: rest) = byteOfSymbols a b c d :: unpack rest := by
  rw [unpack, groupsOf_cons ha, groupsOf_cons hb, groupsOf_cons hc, groupsOf_cons hd, byteOfSymbols,
    ← byteOfBits_groups]
  rfl

/-! ### One symbol replaced -/

/-- What replacing symbol `old` by `new` in a lane adds to the byte. -/
def laneChange (lane : Nat) (old new : CharCode) : Byte := inLane lane (groupFor old ^^^ groupFor new)

/-- Replacing a symbol by another one changes its lane. -/
theorem laneChange_ne_zero {lane : Nat} (hlane : lane < 4) {old new : CharCode} (hold : isSymbol old = true)
    (hnew : isSymbol new = true) (hne : old ≠ new) : laneChange lane old new ≠ 0#8 :=
  inLane_ne_zero hlane fun hzero => hne (groupFor_injOn hold hnew (BitVec.xor_eq_zero_iff.1 hzero))

/-- The new symbol's lane is the old one's with the change added. -/
theorem inLane_eq_xor_laneChange (lane : Nat) (old new : CharCode) :
    inLane lane (groupFor new) = inLane lane (groupFor old) ^^^ laneChange lane old new := by
  rw [laneChange, inLane_xor, ← BitVec.xor_assoc, BitVec.xor_self, BitVec.zero_xor]

section Lanes

variable (a b c d x : CharCode)

theorem byteOfSymbols_lane0 : byteOfSymbols x b c d = byteOfSymbols a b c d ^^^ laneChange 0 a x := by
  simp only [byteOfSymbols, inLane_eq_xor_laneChange 0 a x]; ac_rfl
theorem byteOfSymbols_lane1 : byteOfSymbols a x c d = byteOfSymbols a b c d ^^^ laneChange 1 b x := by
  simp only [byteOfSymbols, inLane_eq_xor_laneChange 1 b x]; ac_rfl
theorem byteOfSymbols_lane2 : byteOfSymbols a b x d = byteOfSymbols a b c d ^^^ laneChange 2 c x := by
  simp only [byteOfSymbols, inLane_eq_xor_laneChange 2 c x]; ac_rfl
theorem byteOfSymbols_lane3 : byteOfSymbols a b c x = byteOfSymbols a b c d ^^^ laneChange 3 d x := by
  simp only [byteOfSymbols, inLane_eq_xor_laneChange 3 d x]; ac_rfl

end Lanes

/-- Replacing symbol `j`, inside the whole bytes, changes byte `j / 4` by the change of lane `j % 4` (R112). The
recursion goes byte by byte; within the first byte, the four places are the four lanes. -/
theorem unpack_set {old new : CharCode} (hnew : isSymbol new = true) :
    ∀ (chars : List CharCode) (j : Nat), (∀ code ∈ chars, isSymbol code = true) → j < 4 * (chars.length / 4) →
      chars[j]? = some old →
      unpack (chars.set j new) = (unpack chars).modify (j / 4) (fun v => v ^^^ laneChange (j % 4) old new)
  | [], _, _, hj, _ | [_], _, _, hj, _ | [_, _], _, _, hj, _ | [_, _, _], _, _, hj, _ => by simp at hj
  | a :: b :: c :: d :: rest, j, hsym, hj, hold => by
    simp only [List.forall_mem_cons] at hsym
    obtain ⟨ha, hb, hc, hd, hrest⟩ := hsym
    rw [unpack_cons_four ha hb hc hd]
    match j with
    | 0 =>
      obtain rfl : a = old := by simpa using hold
      exact (unpack_cons_four hnew hb hc hd rest).trans (congrArg (· :: _) (byteOfSymbols_lane0 a b c d new))
    | 1 =>
      obtain rfl : b = old := by simpa using hold
      exact (unpack_cons_four ha hnew hc hd rest).trans (congrArg (· :: _) (byteOfSymbols_lane1 a b c d new))
    | 2 =>
      obtain rfl : c = old := by simpa using hold
      exact (unpack_cons_four ha hb hnew hd rest).trans (congrArg (· :: _) (byteOfSymbols_lane2 a b c d new))
    | 3 =>
      obtain rfl : d = old := by simpa using hold
      exact (unpack_cons_four ha hb hc hnew rest).trans (congrArg (· :: _) (byteOfSymbols_lane3 a b c d new))
    | j + 4 =>
      have hj' : j < 4 * (rest.length / 4) := by simp only [List.length_cons] at hj; omega
      have hold' : rest[j]? = some old := by simpa using hold
      have hdiv : (j + 4) / 4 = j / 4 + 1 := by omega
      rw [hdiv, Nat.add_mod_right, List.modify_succ_cons, ← unpack_set hnew rest j hrest hj' hold']
      exact unpack_cons_four ha hb hc hd (rest.set j new)

/-- The symbol check lets a sequence of symbols pass. -/
theorem requireSymbols_of_symbols {s : List CharCode} (h : ∀ code ∈ s, isSymbol code = true) :
    requireSymbols s = .ok () := by
  rw [requireSymbols, (firstNonSymbol_eq_none_iff 1 s).2 h]

/-- SYM.UNPACK of symbols (R111). -/
theorem exec_symUnpack_of_symbols (s : State) {chars : List CharCode} (h : ∀ code ∈ chars, isSymbol code = true) :
    exec (.symUnpack chars) s = .next (s.respond (.bytes (unpack chars))) := by
  rw [exec_eq_respond, answer, requireSymbols_of_symbols h]
  rfl

end Sys2Proof.Machine

namespace Sys2Proof.Proofs.SymbolLanes

open Sys2Proof.Machine Sys2Proof.Reference

/-- Settles O37: the change is that of the symbol's lane, which is not empty because the mapper is injective. -/
theorem oneSymbolIsOneLaneOfOneByte : Obligations.OneSymbolIsOneLaneOfOneByte := by
  intro s chars j new hchars hnew hj hne
  simp only [isSym_iff] at hchars hnew
  obtain ⟨old, hold⟩ : ∃ old, chars[j]? = some old := ⟨_, List.getElem?_eq_getElem (by omega)⟩
  have holdsym : isSymbol old = true := hchars old (List.mem_of_getElem? hold)
  have hold_ne : old ≠ new := fun heq => hne (by rw [hold, heq])
  have hlane : j % 4 < 4 := Nat.mod_lt _ (by decide)
  have hset : ∀ code ∈ chars.set j new, isSymbol code = true := fun code hcode => by
    obtain hmem | rfl := List.mem_or_eq_of_mem_set hcode
    · exact hchars code hmem
    · exact hnew
  refine ⟨unpack chars, laneChange (j % 4) old new, laneChange_ne_zero hlane holdsym hnew hold_ne,
    inLane_and_not_mask hlane _, exec_symUnpack_of_symbols s hchars, ?_⟩
  rw [exec_symUnpack_of_symbols s hset, unpack_set hnew chars j hchars hj hold]

end Sys2Proof.Proofs.SymbolLanes
end

section
/-! The checksum fold with the built TABLE as a linear shift register (R80, R84): an entry is eight linear, injective
steps, and folding a byte is those eight steps on the register XOR the byte. -/

namespace Sys2Proof.Machine

open Sys2Proof.Reference

/-! ### One step of R80 -/

/-- What a step adds to the shifted register: the polynomial when the bit shifted out is 1. -/
def feedback (bit : Bool) : Word := if bit then 0xEDB88320#32 else 0#32

theorem feedback_xor : ∀ p q : Bool, feedback (p ^^ q) = feedback p ^^^ feedback q := by
  decide

/-- The polynomial has its top bit set. -/
theorem feedback_getLsbD_31 : ∀ bit : Bool, (feedback bit).getLsbD 31 = bit := by
  decide

/-- A step is a shift and the feedback of the bit shifted out (R80). -/
theorem tableStep_eq (c : Word) : tableStep c = (c >>> 1) ^^^ feedback (c.getLsbD 0) := by
  rw [tableStep, feedback]
  split
  · rfl
  · rw [BitVec.xor_zero]

/-- A step distributes over XOR, since the shift and the feedback do. -/
theorem tableStep_xor (a b : Word) : tableStep (a ^^^ b) = tableStep a ^^^ tableStep b := by
  simp only [tableStep_eq, BitVec.ushiftRight_xor_distrib, BitVec.getLsbD_xor, feedback_xor]
  ac_rfl

/-- A step that shifts out 0 only shifts. -/
theorem tableStep_of_even {c : Word} (h : c.getLsbD 0 = false) : tableStep c = c >>> 1 := by
  rw [tableStep_eq, h]
  exact BitVec.xor_zero

/-- The top bit after a step tells which bit was shifted out. -/
theorem tableStep_getLsbD_31 (c : Word) : (tableStep c).getLsbD 31 = c.getLsbD 0 := by
  rw [tableStep_eq, BitVec.getLsbD_xor, feedback_getLsbD_31, BitVec.getLsbD_ushiftRight,
    BitVec.getLsbD_of_ge c (1 + 31) (by decide), Bool.false_xor]

/-- No step loses information: the bit shifted out is the new top bit, and the others are shifted. -/
theorem tableStep_injective : Function.Injective tableStep := by
  intro a b h
  have hlow : a.getLsbD 0 = b.getLsbD 0 := by rw [← tableStep_getLsbD_31, h, tableStep_getLsbD_31]
  have hshift : a >>> 1 = b >>> 1 := by
    rw [tableStep_eq, tableStep_eq, hlow] at h
    exact (BitVec.xor_left_inj _).1 h
  refine BitVec.eq_of_getLsbD_eq fun i hi => ?_
  cases i with
  | zero => exact hlow
  | succ i => simpa [Nat.add_comm] using congrArg (fun w => w.getLsbD i) hshift

/-! ### Several steps -/

theorem tableStep_iterate_xor (n : Nat) (a b : Word) :
    tableStep^[n] (a ^^^ b) = tableStep^[n] a ^^^ tableStep^[n] b := by
  induction n generalizing a b with
  | zero => rfl
  | succ n ih => rw [Function.iterate_succ_apply, tableStep_xor, ih, Function.iterate_succ_apply,
      Function.iterate_succ_apply]

/-- Steps that shift out zeros only shift. -/
theorem tableStep_iterate_of_low_zero (n : Nat) (c : Word) (h : ∀ i < n, c.getLsbD i = false) :
    tableStep^[n] c = c >>> n := by
  induction n generalizing c with
  | zero => simp
  | succ n ih =>
    have hshift : ∀ i < n, (c >>> 1).getLsbD i = false := fun i hi => by
      rw [BitVec.getLsbD_ushiftRight, Nat.add_comm]
      exact h (i + 1) (Nat.succ_lt_succ hi)
    rw [Function.iterate_succ_apply, tableStep_of_even (h 0 n.succ_pos), ih _ hshift, ← BitVec.shiftRight_add,
      Nat.add_comm]

/-- Steps undo a shift that lost no bit. -/
theorem tableStep_iterate_shiftLeft (n : Nat) (c : Word) (h : ∀ i, c.getLsbD i = true → n + i < 32) :
    tableStep^[n] (c <<< n) = c := by
  rw [tableStep_iterate_of_low_zero n _ (fun i hi => by simp [hi])]
  refine BitVec.eq_of_getLsbD_eq fun i hi => ?_
  simpa using h i

/-- Entry `i` of the built TABLE is eight steps from `i` (R80). -/
theorem tableRead_buildTable (i : BitVec 8) : tableRead buildTable i = tableStep^[8] (i.setWidth 32) := by
  have hentry : tableRead buildTable i = tableEntry i.toNat := by simp [tableRead, buildTable]
  rw [hentry, ← BitVec.ofNat_toNat]
  rfl

/-- TABLE distributes over XOR. -/
theorem tableRead_buildTable_xor (a b : BitVec 8) :
    tableRead buildTable (a ^^^ b) = tableRead buildTable a ^^^ tableRead buildTable b := by
  simp only [tableRead_buildTable, BitVec.setWidth_xor, tableStep_iterate_xor]

/-! ### One fold step of R84 -/

/-- The fold step for any TABLE: the index is the low byte of the register XOR the byte. -/
theorem crcUpdate_eq (t : CrcTable) (reg : Word) (b : Byte) :
    crcUpdate t reg b = tableRead t (reg.setWidth 8 ^^^ b) ^^^ (reg >>> 8) := by
  rw [crcUpdate, crcUpdate_index]

/-- A word is its low byte and the rest. -/
theorem xor_shiftLeft_low_byte (w : Word) : (w.setWidth 8).setWidth 32 ^^^ ((w >>> 8) <<< 8) = w := by
  refine BitVec.eq_of_getLsbD_eq fun i hi => ?_
  by_cases hlow : i < 8
  · simp [hlow, hi]
  · simp [hlow, hi, Nat.add_sub_cancel' (Nat.not_lt.1 hlow)]

/-- With the built TABLE a fold step is eight steps of R80 on the register XOR the byte: the table gives the steps on
the low byte, and on the rest they only shift. -/
theorem crcUpdate_buildTable (reg : Word) (b : Byte) :
    crcUpdate buildTable reg b = tableStep^[8] (reg ^^^ b.setWidth 32) := by
  have hrest : tableStep^[8] ((reg >>> 8) <<< 8) = reg >>> 8 :=
    tableStep_iterate_shiftLeft 8 _ fun i hi => by
      rw [BitVec.getLsbD_ushiftRight] at hi
      exact BitVec.lt_of_getLsbD hi
  calc crcUpdate buildTable reg b
      = tableStep^[8] ((reg.setWidth 8 ^^^ b).setWidth 32) ^^^ (reg >>> 8) := by
        rw [crcUpdate_eq, tableRead_buildTable]
    _ = tableStep^[8] ((reg.setWidth 8).setWidth 32 ^^^ ((reg >>> 8) <<< 8) ^^^ b.setWidth 32) := by
        simp only [BitVec.setWidth_xor, tableStep_iterate_xor, hrest]
        ac_rfl
    _ = tableStep^[8] (reg ^^^ b.setWidth 32) := by rw [xor_shiftLeft_low_byte]

/-! ### The fold loses nothing (K6) -/

/-- Different registers stay different through a byte. -/
theorem crcUpdate_buildTable_injective (b : Byte) : Function.Injective fun reg => crcUpdate buildTable reg b := by
  intro x y h
  simp only [crcUpdate_buildTable] at h
  exact (BitVec.xor_left_inj _).1 (tableStep_injective.iterate 8 h)

/-- Different bytes lead one register to different registers. -/
theorem crcUpdate_buildTable_byte_injective (reg : Word) : Function.Injective (crcUpdate buildTable reg) := by
  intro b b' h
  simp only [crcUpdate_buildTable] at h
  have hwide : b.setWidth 32 = b'.setWidth 32 := (BitVec.xor_right_inj _).1 (tableStep_injective.iterate 8 h)
  have hback := congrArg (BitVec.setWidth 8) hwide
  simpa [BitVec.setWidth_setWidth_of_le] using hback

/-- Different registers stay different through any message. -/
theorem crcFold_buildTable_injective (bytes : List Byte) :
    Function.Injective fun reg => crcFold buildTable reg bytes := by
  induction bytes with
  | nil => exact Function.injective_id
  | cons b bytes ih => exact ih.comp (crcUpdate_buildTable_injective b)

/-- One changed byte changes the checksum: it changes the register, and no later byte undoes that. -/
theorem crc_buildTable_ne_of_byte_ne (xs ys : List Byte) {b b' : Byte} (h : b ≠ b') :
    crc buildTable (xs ++ b :: ys) ≠ crc buildTable (xs ++ b' :: ys) := by
  intro hcrc
  have hfold := (BitVec.xor_left_inj _).1 hcrc
  simp only [crcFold_append, crcFold_cons] at hfold
  exact h (crcUpdate_buildTable_byte_injective _ (crcFold_buildTable_injective ys hfold))

/-! ### The CRC without a table (R91, K1, K4) -/

/-- A bit enters the serial register by XOR with the bit about to be shifted out. -/
theorem serialBit_eq (reg : Word) (bit : Bool) :
    serialBit reg bit = tableStep (reg ^^^ (BitVec.ofBool bit).setWidth 32) := by
  have hlow : (reg ^^^ (BitVec.ofBool bit).setWidth 32).getLsbD 0 = (reg.getLsbD 0 != bit) := by
    simp
  have hshift : (reg ^^^ (BitVec.ofBool bit).setWidth 32) >>> 1 = reg >>> 1 := by
    have hgone : (BitVec.ofBool bit).setWidth 32 >>> 1 = 0#32 := by cases bit <;> rfl
    rw [BitVec.ushiftRight_xor_distrib, hgone, BitVec.xor_zero]
  rw [serialBit, tableStep, hlow, hshift]

/-- The `n` low bits of a byte as a word. -/
def lowBits (n : Nat) (b : Byte) : Word := (b.setWidth n).setWidth 32

theorem lowBits_succ {n : Nat} (hn : n < 8) (b : Byte) :
    lowBits (n + 1) b = lowBits n b ^^^ ((BitVec.ofBool (b.getLsbD n)).setWidth 32 <<< n) := by
  refine BitVec.eq_of_getLsbD_eq fun i hi => ?_
  rcases lt_trichotomy i n with hlt | rfl | hgt
  · simp [lowBits, hlt, hlt.le, hi]
  · simp [lowBits, hi]
  · simp [lowBits, BitVec.getLsbD_ofBool, hi, Nat.not_le.2 hgt, Nat.not_lt.2 hgt.le, Nat.sub_ne_zero_of_lt hgt]

/-- The serial register after `n` bits of a byte: the bits can as well enter all at once, before the first step, since
bit `n` entered at place `n` is at place 0 after `n` steps. -/
theorem foldl_serialBit (reg : Word) (b : Byte) (n : Nat) (hn : n ≤ 8) :
    (List.range n).foldl (fun r i => serialBit r (b.getLsbD i)) reg = tableStep^[n] (reg ^^^ lowBits n b) := by
  induction n with
  | zero => simp [lowBits, BitVec.of_length_zero]
  | succ n ih =>
    have harrive : tableStep^[n] ((BitVec.ofBool (b.getLsbD n)).setWidth 32 <<< n)
        = (BitVec.ofBool (b.getLsbD n)).setWidth 32 :=
      tableStep_iterate_shiftLeft n _ fun i hi => by
        have hi0 : i = 0 := by simp_all [BitVec.getLsbD_setWidth, BitVec.getLsbD_ofBool]
        omega
    rw [List.range_succ, List.foldl_append, ih (by omega), List.foldl_cons, List.foldl_nil, serialBit_eq,
      lowBits_succ hn, ← BitVec.xor_assoc, Function.iterate_succ_apply', tableStep_iterate_xor n (_ ^^^ _), harrive]

/-- A byte folded through the built TABLE is the byte folded bit by bit. -/
theorem serialByte_eq_crcUpdate (reg : Word) (b : Byte) : serialByte reg b = crcUpdate buildTable reg b := by
  rw [serialByte, foldl_serialBit reg b 8 le_rfl, crcUpdate_buildTable, lowBits, BitVec.setWidth_eq]

/-- The checksum by TABLE is the standard CRC-32. -/
theorem crc_buildTable_eq_serialCrc (bytes : List Byte) : crc buildTable bytes = serialCrc bytes := by
  have hbyte : serialByte = crcUpdate buildTable := funext₂ serialByte_eq_crcUpdate
  rw [crc, serialCrc, hbyte, crcFold]
  exact BitVec.xor_allOnes

/-! ### The loop of R84 on numbers -/

/-- One round of the loop. -/
theorem crcUpdate_eq_on_numbers (t : CrcTable) (reg : Word) (b : Byte) :
    crcUpdate t reg b = t[(reg.toNat ^^^ b.toNat) % 256]'(Nat.mod_lt _ (by decide)) ^^^
      BitVec.ofNat 32 (reg.toNat / 256) := by
  have hindex : (reg.setWidth 8 ^^^ b).toNat = (reg.toNat ^^^ b.toNat) % 256 := by
    rw [Nat.xor_mod_two_pow (n := 8), BitVec.toNat_xor, BitVec.toNat_setWidth, Nat.mod_eq_of_lt b.isLt]
  have hshift : reg >>> 8 = BitVec.ofNat 32 (reg.toNat / 256) := by
    apply BitVec.eq_of_toNat_eq
    rw [BitVec.toNat_ushiftRight, Nat.shiftRight_eq_div_pow, BitVec.toNat_ofNat]
    omega
  simp only [crcUpdate_eq, tableRead, hindex, hshift]

theorem crcFold_eq_register (t : CrcTable) (reg : Word) (bytes : List Byte) :
    crcFold t reg bytes = register t reg bytes := by
  induction bytes generalizing reg with
  | nil => rfl
  | cons b bytes ih => rw [crcFold_cons, ih, crcUpdate_eq_on_numbers, register]

/-- The fold, complemented, is the closed form for any TABLE. -/
theorem crc_eq_checksum (t : CrcTable) (bytes : List Byte) : crc t bytes = checksum t bytes := by
  rw [crc, checksum, crcFold_eq_register]
  exact BitVec.xor_allOnes

/-- The checksum of one byte (the corner case under R85). -/
theorem crc_singleton (t : CrcTable) (b : Byte) : crc t [b] = tableRead t (0xFF#8 ^^^ b) ^^^ 0xFF000000#32 := by
  rw [crc, crcFold_cons, crcFold_nil, crcUpdate_eq, BitVec.xor_assoc]
  rfl

end Sys2Proof.Machine

namespace Sys2Proof.Proofs.ChecksumEngine

open Sys2Proof.Machine Sys2Proof.Reference

/-- Settles O1: the listing is computed once, two checks are computed from it, and the third holds because every step
of the construction distributes over XOR. -/
theorem tableHoldsTheListedValues : Obligations.TableHoldsTheListedValues := by
  refine ⟨buildTable_toList_eq_listedTable, ?xor, ?sum, tableRead_buildTable_xor⟩
  case xor => rw [buildTable_toList_eq_listedTable]; decide +kernel
  case sum => rw [buildTable_toList_eq_listedTable]; decide +kernel

/-- Settles O25: the model's fold is the loop, and a format B record decodes to its bytes. -/
theorem crcCalcFoldsEveryByte : Obligations.CrcCalcFoldsEveryByte := by
  refine ⟨fun s bytes => ?loop, fun c arg bytes hacc => ?decode⟩
  case loop => rw [exec_eq_respond, answer, crc_eq_checksum]
  case decode =>
    have hlen : c.accepts (Command.inLen ⟨0x02#8, arg, bytes.map BitVec.toNat⟩) = true := by
      simpa [Command.inLen] using hacc
    rw [decode_of_accepted c _ hlen, decodeAccepted_crcCalc, readBytes_map_toNat]
    rfl

/-- Settles O27: byte by byte, eight serial bits are one table lookup. -/
theorem crcCalcIsTheBitSerialCrc : Obligations.CrcCalcIsTheBitSerialCrc := by
  intro s htable
  refine ⟨fun bytes => ?serial, ?check⟩
  case serial => rw [exec_eq_respond, answer, htable, crc_buildTable_eq_serialCrc]
  case check =>
    have hcrc : crc buildTable [0x31, 0x32, 0x33, 0x34, 0x35, 0x36, 0x37, 0x38, 0x39] = 0xCBF43926#32 := by
      decide +kernel
    rw [exec_eq_respond, answer, htable, hcrc]

/-- Settles O31. -/
theorem oneChangedByteChangesTheChecksum : Obligations.OneChangedByteChangesTheChecksum :=
  fun xs ys _ _ hne => crc_buildTable_ne_of_byte_ne xs ys hne

/-- Settles O24: the two sides of 255, and entries of the built TABLE by eight steps each. -/
theorem crcTblrdReadsOneEntry : Obligations.CrcTblrdReadsOneEntry := by
  have hlow : ∀ (s : State) (arg : Word) (h : arg.toNat < 256),
      exec (.crcTblrd arg) s = .next (s.respond (.value s.table[arg.toNat])) := fun s arg h => by
    have hindex : (arg.extractLsb' 0 8).toNat = arg.toNat := by
      rw [BitVec.extractLsb'_toNat, Nat.shiftRight_zero]
      omega
    rw [exec_eq_respond, answer, if_neg (by omega)]
    simp only [tableRead, hindex]
  have hhigh : ∀ (s : State) (arg : Word), 255 < arg.toNat →
      exec (.crcTblrd arg) s = .next (s.respond (.error .badCommand)) := fun s arg h => by
    rw [exec_eq_respond, answer, if_pos h]
  refine ⟨hhigh, hlow, fun s htable => ⟨?_, ?_, hhigh s _ (by decide), ?_⟩, fun c arg input hacc => ?decode⟩
  case decode =>
    exact (decode_of_accepted c ⟨0x01#8, arg, input⟩ hacc).trans (decodeAccepted_crcTblrd c arg input)
  all_goals
    rw [exec_eq_respond, answer, if_neg (by decide), htable, tableRead_buildTable]
    rfl

/-- Settles O26: the single byte from one fold step, the numbers by computing them. -/
theorem crcCalcCornerValues : Obligations.CrcCalcCornerValues := by
  have hempty : ∀ t, crc t [] = 0x00000000#32 := fun t => BitVec.xor_self
  have hff : crc buildTable [0xFF#8] = 0xFF000000#32 := by decide +kernel
  have hzero : crc buildTable [0x00#8] = 0xD202EF8D#32 := by decide +kernel
  have htext : crc buildTable [72#8, 105#8] = 0x4D170E0E#32 := by decide +kernel
  refine ⟨fun s => ?empty, fun s b htable => ?single, fun s htable => ⟨?ff, ?zero, ?text⟩⟩
  case empty => rw [exec_eq_respond, answer, hempty]
  case single => rw [exec_eq_respond, answer, htable, crc_singleton]
  case ff => rw [exec_eq_respond, answer, htable, hff]
  case zero => rw [exec_eq_respond, answer, htable, hzero]
  case text => rw [exec_eq_respond, answer, htable, htext]

end Sys2Proof.Proofs.ChecksumEngine
end

section
/-! The checksum block: sixteen symbols are the sixteen groups of a word, most significant first (R86, R88). -/

namespace Sys2Proof.Machine

open Sys2Proof.Reference

/-! ### The groups of a symbol sequence -/

/-- Every symbol contributes its group (R101). -/
theorem groupsOf_eq_map {s : List CharCode} (h : ∀ code ∈ s, isSymbol code = true) :
    groupsOf s = s.map groupFor := by
  induction s with
  | nil => rfl
  | cons code s ih =>
    obtain ⟨hcode, hs⟩ := List.forall_mem_cons.1 h
    rw [groupsOf_cons hcode, ih hs, List.map_cons]

@[simp] theorem groupFor_symOf : ∀ g : Group, groupFor (symOf g) = g := by
  decide

theorem groupsOf_map_symOf (gs : List Group) : groupsOf (gs.map symOf) = gs := by
  have hid : groupFor ∘ symOf = id := funext groupFor_symOf
  rw [groupsOf_eq_map fun _ => isSymbol_of_mem_map_symOf, List.map_map, hid, List.map_id]

/-- The mapper gives a symbol sequence back from its groups (R101). -/
theorem map_symOf_groupsOf {s : List CharCode} (h : ∀ code ∈ s, isSymbol code = true) :
    (groupsOf s).map symOf = s := by
  rw [groupsOf_eq_map h, List.map_map]
  exact (List.map_congr_left (g := id) fun code hcode => symOf_groupFor (h code hcode)).trans (List.map_id s)

/-- The listed number of a symbol is its group's. -/
theorem groupNumber_eq_toNat {code : CharCode} (h : isSymbol code = true) :
    groupNumber code = (groupFor code).toNat := by
  rcases (isSymbol_iff code).1 h with rfl | rfl | rfl | rfl <;> rfl

/-! ### A word and its groups -/

/-- The first `k` groups of a word, most significant first. -/
def wordGroups (k : Nat) (c : Word) : List Group := (List.range k).map fun j => c.extractLsb' (30 - 2 * j) 2

theorem toSymbols_eq_map_wordGroups (c : Word) : toSymbols c = (wordGroups 16 c).map symOf := by
  rw [toSymbols, wordGroups, List.map_map]
  rfl

/-- One more group is shifted in from the right. -/
theorem wordOfGroups_append_singleton (gs : List Group) (g : Group) :
    wordOfGroups (gs ++ [g]) = (wordOfGroups gs <<< 2) ||| g.setWidth 32 := by
  rw [wordOfGroups, List.foldl_append]
  rfl

/-- Two bits of a word shifted in after those above them. -/
theorem shiftLeft_two_or_extractLsb' (c : Word) (m : Nat) :
    ((c >>> (m + 2)) <<< 2) ||| (c.extractLsb' m 2).setWidth 32 = c >>> m := by
  refine BitVec.eq_of_getLsbD_eq fun i hi => ?_
  by_cases hlow : i < 2
  · simp [hlow, hi]
  · simp [hlow, hi, Nat.add_assoc, Nat.add_sub_cancel' (Nat.not_lt.1 hlow)]

/-- The first `k` groups of a word carry the word without its lower bits. -/
theorem wordOfGroups_wordGroups (c : Word) (k : Nat) (hk : k ≤ 16) :
    wordOfGroups (wordGroups k c) = c >>> (32 - 2 * k) := by
  induction k with
  | zero => exact (BitVec.ushiftRight_eq_zero le_rfl).symm
  | succ k ih =>
    have hstep : wordGroups (k + 1) c = wordGroups k c ++ [c.extractLsb' (30 - 2 * k) 2] := by
      rw [wordGroups, List.range_succ, List.map_append]
      rfl
    have hshift : 32 - 2 * k = 30 - 2 * k + 2 := by omega
    have hnext : 32 - 2 * (k + 1) = 30 - 2 * k := by omega
    rw [hstep, wordOfGroups_append_singleton, ih (by omega), hshift, hnext, shiftLeft_two_or_extractLsb']

/-- The last group shifted in is the lowest. -/
theorem extractLsb'_zero_shiftLeft_two_or (w : Word) (g : Group) :
    ((w <<< 2) ||| g.setWidth 32).extractLsb' 0 2 = g := by
  refine BitVec.eq_of_getLsbD_eq fun i hi => ?_
  have hwide : i < 32 := by omega
  simp [hi, hwide]

/-- The groups before it are two bits higher than they were. -/
theorem extractLsb'_succ_shiftLeft_two_or (w : Word) (g : Group) {m : Nat} (hm : m + 4 ≤ 32) :
    ((w <<< 2) ||| g.setWidth 32).extractLsb' (m + 2) 2 = w.extractLsb' m 2 := by
  refine BitVec.eq_of_getLsbD_eq fun i hi => ?_
  have hplace : m + 2 + i = m + i + 2 := by omega
  have hwide : m + i + 2 < 32 := by omega
  simp [hi, hplace, hwide, BitVec.getLsbD_eq_getElem (show m + i < 32 by omega)]

/-- Each of at most sixteen groups is found again at its place, the last one at the right end. -/
theorem extractLsb'_wordOfGroups (gs : List Group) (hlen : gs.length ≤ 16) :
    ∀ (j : Nat) (g : Group), gs.reverse[j]? = some g → (wordOfGroups gs).extractLsb' (2 * j) 2 = g := by
  induction gs using List.reverseRecOn with
  | nil => simp
  | append_singleton gs last ih =>
    rw [List.length_append, List.length_singleton] at hlen
    intro j g hg
    rw [List.reverse_append, List.reverse_singleton, List.singleton_append] at hg
    rw [wordOfGroups_append_singleton]
    cases j with
    | zero =>
      obtain rfl : last = g := by simpa using hg
      exact extractLsb'_zero_shiftLeft_two_or _ last
    | succ j =>
      rw [List.getElem?_cons_succ] at hg
      obtain ⟨hj, -⟩ := List.getElem?_eq_some_iff.1 hg
      rw [List.length_reverse] at hj
      rw [Nat.mul_succ, extractLsb'_succ_shiftLeft_two_or _ _ (by omega)]
      exact ih (by omega) j g hg

/-- Sixteen groups are the groups of the word they carry. -/
theorem wordGroups_wordOfGroups {gs : List Group} (hlen : gs.length = 16) :
    wordGroups 16 (wordOfGroups gs) = gs := by
  have hcount : (wordGroups 16 (wordOfGroups gs)).length = 16 := by simp [wordGroups]
  refine List.ext_getElem (hcount.trans hlen.symm) fun j hj hjgs => ?_
  rw [hcount] at hj
  have hplace : 30 - 2 * j = 2 * (15 - j) := by omega
  have hmirror : gs.length - 1 - (15 - j) = j := by omega
  have hsource : gs.reverse[15 - j]? = some gs[j] := by
    rw [List.getElem?_reverse (by omega), hmirror, List.getElem?_eq_getElem hjgs]
  have hword : (wordGroups 16 (wordOfGroups gs))[j] = (wordOfGroups gs).extractLsb' (30 - 2 * j) 2 := by
    simp [wordGroups]
  exact hword.trans (hplace ▸ extractLsb'_wordOfGroups gs hlen.le _ _ hsource)

/-! ### The two conversions are inverse -/

theorem fromSymbols_toSymbols (c : Word) : fromSymbols (toSymbols c) = .ok c := by
  rw [fromSymbols_of_symbols (toSymbols_length c) fun _ => isSymbol_of_mem_toSymbols, toSymbols_eq_map_wordGroups,
    groupsOf_map_symOf, wordOfGroups_wordGroups c 16 le_rfl]
  exact congrArg _ (BitVec.ushiftRight_zero c)

theorem toSymbols_wordOfGroups {s : List CharCode} (hlen : s.length = 16)
    (hsym : ∀ code ∈ s, isSymbol code = true) : toSymbols (wordOfGroups (groupsOf s)) = s := by
  rw [toSymbols_eq_map_wordGroups, wordGroups_wordOfGroups ((groupsOf_length s hsym).trans hlen),
    map_symOf_groupsOf hsym]

/-! ### The block in closed form -/

/-- The block symbol by symbol (R56). -/
theorem toSymbols_eq_block (c : Word) : toSymbols c = block c := by
  simp only [toSymbols, block, symOf_extractLsb']

/-- A pair of bits inside a byte of a word is that pair of the word. -/
theorem codeOf_extractLsb'_byte (c : Word) (m : Nat) {k : Nat} (hk : k ≤ 6) :
    codeOf ((c.extractLsb' m 8).toNat / 2 ^ k) = codeOf (c.toNat / 2 ^ (m + k)) := by
  rw [BitVec.extractLsb'_toNat, Nat.shiftRight_eq_div_pow, Nat.pow_add, ← Nat.div_div_eq_div_mul,
    ← codeOf_mod, ← codeOf_mod (c.toNat / 2 ^ m / 2 ^ k)]
  congr 1
  interval_cases k <;> omega

/-- The symbols of a byte of a word. -/
theorem byteSymbols_extractLsb' (c : Word) (m : Nat) :
    byteSymbols (c.extractLsb' m 8) = [codeOf (c.toNat / 2 ^ (m + 6)), codeOf (c.toNat / 2 ^ (m + 4)),
      codeOf (c.toNat / 2 ^ (m + 2)), codeOf (c.toNat / 2 ^ m)] := by
  rw [← codeOf_extractLsb'_byte c m (k := 6) (by decide), ← codeOf_extractLsb'_byte c m (k := 4) (by decide),
    ← codeOf_extractLsb'_byte c m (k := 2) (by decide), ← Nat.add_zero m,
    ← codeOf_extractLsb'_byte c m (k := 0) (by decide), Nat.pow_zero, Nat.div_one]
  rfl

/-- The block is the main cipher of the four bytes, the most significant first (R35). -/
theorem block_eq_packed (c : Word) :
    block c = packed [c.extractLsb' 24 8, c.extractLsb' 16 8, c.extractLsb' 8 8, c.extractLsb' 0 8] := by
  simp only [packed, List.flatMap_cons, List.flatMap_nil, byteSymbols_extractLsb']
  rfl

/-! ### The value of a block -/

/-- Shifting a group in is multiplying by 4 and adding its number. -/
theorem ofNat_shiftLeft_two_or (n : Nat) (g : Group) :
    (BitVec.ofNat 32 n <<< 2) ||| g.setWidth 32 = BitVec.ofNat 32 (4 * n + g.toNat) := by
  have hdisjoint : (BitVec.ofNat 32 n <<< 2) &&& g.setWidth 32 = 0#32 := by
    refine BitVec.eq_of_getLsbD_eq fun i hi => ?_
    by_cases hlow : i < 2
    · simp [hlow]
    · simp [hlow, BitVec.getLsbD_of_ge g i (Nat.not_lt.1 hlow)]
  rw [← BitVec.add_eq_or_of_and_eq_zero _ _ hdisjoint]
  apply BitVec.eq_of_toNat_eq
  have hg := g.isLt
  simp only [BitVec.toNat_add, BitVec.toNat_shiftLeft, BitVec.toNat_ofNat, BitVec.toNat_setWidth, Nat.shiftLeft_eq]
  omega

/-- Symbols read from the left as digits to base 4. -/
def base4 (n : Nat) (s : List CharCode) : Nat := s.foldl (fun n code => 4 * n + groupNumber code) n

theorem wordOfGroups_eq_base4 {s : List CharCode} (h : ∀ code ∈ s, isSymbol code = true) (n : Nat) :
    (groupsOf s).foldl (fun (c : Word) g => (c <<< 2) ||| g.setWidth 32) (BitVec.ofNat 32 n)
      = BitVec.ofNat 32 (base4 n s) := by
  induction s generalizing n with
  | nil => rfl
  | cons code s ih =>
    obtain ⟨hcode, hs⟩ := List.forall_mem_cons.1 h
    rw [groupsOf_cons hcode, List.foldl_cons, ofNat_shiftLeft_two_or, ← groupNumber_eq_toNat hcode, ih hs]
    rfl

/-- The digits with their weights. -/
theorem base4_eq_sum (s : List CharCode) (n : Nat) :
    base4 n s = n * 4 ^ s.length +
      ((List.range s.length).map fun j => groupNumber (s.getD j 0) * 4 ^ (s.length - 1 - j)).sum := by
  induction s generalizing n with
  | nil => simp [base4]
  | cons code s ih =>
    have hstep : base4 n (code :: s) = base4 (4 * n + groupNumber code) s := rfl
    have htail : ∀ j, groupNumber ((code :: s).getD (j + 1) 0) * 4 ^ (s.length - (j + 1))
        = groupNumber (s.getD j 0) * 4 ^ (s.length - 1 - j) := fun j => by
      rw [List.getD_cons_succ, Nat.sub_sub, Nat.add_comm 1 j]
    simp only [hstep, ih, List.length_cons, Nat.add_sub_cancel, List.range_succ_eq_map, List.map_cons, List.sum_cons,
      List.map_map, Function.comp_def, htail, List.getD_cons_zero, Nat.sub_zero, Nat.pow_succ]
    ring

/-- What sixteen symbols carry is the sum of R88. -/
theorem wordOfGroups_eq_blockValue {s : List CharCode} (hlen : s.length = 16)
    (hsym : ∀ code ∈ s, isSymbol code = true) : wordOfGroups (groupsOf s) = blockValue s := by
  have hweight : ∀ j ∈ List.range 16, groupNumber (s.getD j 0) * 4 ^ (16 - 1 - j)
      = groupNumber (s.getD j 0) * 2 ^ (30 - 2 * j) := fun j _ => by
    have hexp : 30 - 2 * j = 2 * (16 - 1 - j) := by omega
    rw [hexp, Nat.pow_mul]
  calc wordOfGroups (groupsOf s)
      = BitVec.ofNat 32 (base4 0 s) := wordOfGroups_eq_base4 hsym 0
    _ = blockValue s := by
        rw [base4_eq_sum, hlen, List.map_congr_left hweight, Nat.zero_mul, Nat.zero_add, blockValue]

/-! ### The errors of R88 -/

theorem fromSymbols_of_length_ne {s : List CharCode} (h : s.length ≠ 16) : fromSymbols s = .error .length :=
  if_neg h

/-- The leftmost element that is no symbol is what the check finds. -/
theorem firstNonSymbol_of_firstBad {s : List CharCode} {c p : Nat} (h : FirstBad s c p) :
    firstNonSymbol 1 s = some (c, p) := by
  obtain ⟨pre, post, hs, hpre, hbad, hp⟩ := h
  simp only [isSym_iff, Bool.not_eq_true] at hpre hbad
  exact (firstNonSymbol_eq_some_iff 1 s c p).2 ⟨pre, post, hs, hpre, hbad, by omega⟩

/-- Its position lies in the sequence. -/
theorem position_of_firstBad {s : List CharCode} {c p : Nat} (h : FirstBad s c p) : 1 ≤ p ∧ p ≤ s.length := by
  obtain ⟨pre, post, rfl, -, -, rfl⟩ := h
  simp

theorem fromSymbols_of_firstBad {s : List CharCode} {c p : Nat} (hlen : s.length = 16) (h : FirstBad s c p) :
    fromSymbols s = .error (.validation c p) := by
  rw [fromSymbols, if_pos hlen, requireSymbols, firstNonSymbol_of_firstBad h]

end Sys2Proof.Machine

namespace Sys2Proof.Proofs.ChecksumBlock

open Sys2Proof.Machine Sys2Proof.Reference

/-- CRC.TOSYM answers the block (R87). -/
theorem exec_crcTosym_eq_block (s : State) (c : Word) :
    exec (.crcTosym c) s = .next (s.respond (.symbols (block c))) := by
  rw [exec_eq_respond, answer, toSymbols_eq_block]

/-- Settles O28: the block in closed form, from which the corner values are computed. -/
theorem crcTosymLaysOutTheChecksum : Obligations.CrcTosymLaysOutTheChecksum := by
  refine ⟨exec_crcTosym_eq_block, fun c => ⟨?length, fun code hcode => ?symbols, block_eq_packed c⟩,
    fun s => ?corners, fun c arg input hacc => ?decode⟩
  case length => rw [← toSymbols_eq_block, toSymbols_length]
  case symbols =>
    rw [← toSymbols_eq_block] at hcode
    exact (isSym_iff code).2 (isSymbol_of_mem_toSymbols hcode)
  case corners =>
    simp only [exec_crcTosym_eq_block]
    exact ⟨rfl, rfl, rfl, rfl, rfl⟩
  case decode =>
    exact (decode_of_accepted c ⟨0x03#8, arg, input⟩ hacc).trans (decodeAccepted_crcTosym c arg input)

/-- CRC.FROMSYM answers what `FromSymbols` gives (R89). -/
theorem exec_crcFromsym (s : State) (chars : List CharCode) :
    exec (.crcFromsym chars) s = .next (s.respond (responseOf ((fromSymbols chars).map .value))) :=
  exec_eq_respond _ s

/-- Settles O29: the three outcomes of `FromSymbols`; the two examples are of the second and the third kind. -/
theorem crcFromsymReadsSixteenSymbols : Obligations.CrcFromsymReadsSixteenSymbols := by
  have hbad : ∀ (s : State) (chars : List CharCode) (c p : Nat), chars.length = 16 → FirstBad chars c p →
      exec (.crcFromsym chars) s = .next (s.respond (.error (.validation c p))) := fun s chars c p hlen hfirst => by
    rw [exec_crcFromsym, fromSymbols_of_firstBad hlen hfirst]
    rfl
  have hvalue : ∀ (s : State) (chars : List CharCode), chars.length = 16 → (∀ c ∈ chars, IsSym c) →
      exec (.crcFromsym chars) s = .next (s.respond (.value (blockValue chars))) := fun s chars hlen hsym => by
    simp only [isSym_iff] at hsym
    rw [exec_crcFromsym, fromSymbols_of_symbols hlen hsym, wordOfGroups_eq_blockValue hlen hsym]
    rfl
  refine ⟨fun s chars hlen => ?short, fun s chars c p hlen hfirst => ⟨hbad s chars c p hlen hfirst, ?position⟩,
    hvalue, fun s => ⟨?last, ?vector⟩, fun c arg chars hwf => ?decode⟩
  case short =>
    rw [exec_crcFromsym, fromSymbols_of_length_ne hlen]
    rfl
  case position => exact hlen ▸ position_of_firstBad hfirst
  case last =>
    exact hbad s _ 0x58 16 rfl ⟨List.replicate 15 0x4F, [], rfl, by simp [IsSym], by simp [IsSym], rfl⟩
  case vector =>
    rw [hvalue s _ rfl (by simp [IsSym])]
    rfl
  case decode =>
    obtain ⟨hacc, hfits⟩ := Bool.and_eq_true_iff.1 hwf
    refine (decode_of_accepted c ⟨0x04#8, arg, chars⟩ hacc).trans ?_
    rw [decodeAccepted_crcFromsym, readChars_of_charFits hfits]
    rfl

/-- Settles O30. -/
theorem toSymbolsAndFromSymbolsAreInverse : Obligations.ToSymbolsAndFromSymbolsAreInverse := by
  refine ⟨fromSymbols_toSymbols, fun s hlen hsym => ?_⟩
  simp only [isSym_iff] at hsym
  exact ⟨_, fromSymbols_of_symbols hlen hsym, toSymbols_wordOfGroups hlen hsym⟩

end Sys2Proof.Proofs.ChecksumBlock
end

section
/-! DECODE of a v2 ciphertext with one symbol replaced: the checksum tells (R93, R130, R176). -/

namespace Sys2Proof.Machine

open Sys2Proof.Reference

/-! ### Unpack undoes Pack -/

/-- The four lanes of a byte are the byte. -/
theorem byte_eq_xor_lanes : ∀ v : Byte, inLane 0 (v.extractLsb' 6 2) ^^^ inLane 1 (v.extractLsb' 4 2) ^^^
    inLane 2 (v.extractLsb' 2 2) ^^^ inLane 3 (v.extractLsb' 0 2) = v := by
  decide +kernel

/-- The symbols of a byte are the images of its four pairs of bits. -/
theorem byteSymbols_eq_symOf (v : Byte) : byteSymbols v =
    [symOf (v.extractLsb' 6 2), symOf (v.extractLsb' 4 2), symOf (v.extractLsb' 2 2), symOf (v.extractLsb' 0 2)] := by
  simp [byteSymbols, symOf_extractLsb']

/-- A packed byte in front is unpacked in front. -/
theorem unpack_byteSymbols_append (v : Byte) (rest : List CharCode) :
    unpack (byteSymbols v ++ rest) = v :: unpack rest := by
  rw [byteSymbols_eq_symOf]
  refine (unpack_cons_four (isSymbol_symOf _) (isSymbol_symOf _) (isSymbol_symOf _) (isSymbol_symOf _) rest).trans ?_
  simp only [byteOfSymbols, groupFor_symOf, byte_eq_xor_lanes]

theorem unpack_pack (bytes : List Byte) : unpack (pack bytes) = bytes := by
  induction bytes with
  | nil => rfl
  | cons v bytes ih => rw [pack_cons, unpack_byteSymbols_append, ih]

/-! ### DECODE of main cipher and block -/

/-- A symbol put in place of a symbol leaves symbols. -/
theorem isSymbol_of_mem_set {s : List CharCode} (hs : ∀ code ∈ s, isSymbol code = true) {new : CharCode}
    (hnew : isSymbol new = true) (j : Nat) : ∀ code ∈ s.set j new, isSymbol code = true := fun code hcode => by
  obtain hmem | rfl := List.mem_or_eq_of_mem_set hcode
  · exact hs code hmem
  · exact hnew

/-- A length of at least one byte's symbols and a block is v2 (R120). -/
theorem detect_version_v2 {n : Nat} (hn : n ≠ 0) : (detect (4 * n + 16)).version = .v2 := by
  rw [detect, if_pos (by omega)]

/-- DECODE splits symbols of whole bytes and sixteen more into main cipher and block (R130). -/
theorem decodeResult_append (c : Config) (t : CrcTable) {main block : List CharCode} {n : Nat} (hn : n ≠ 0)
    (hmainlen : main.length = 4 * n) (hblocklen : block.length = 16) (hmain : ∀ code ∈ main, isSymbol code = true)
    (hblock : ∀ code ∈ block, isSymbol code = true) :
    decodeResult c t (main ++ block) = decodeV2 c t main block := by
  have hlen : (main ++ block).length = 4 * n + 16 := by rw [List.length_append, hmainlen, hblocklen]
  have hversion := detect_version_v2 hn
  have hsym : ∀ code ∈ main ++ block, isSymbol code = true := fun code hcode =>
    (List.mem_append.1 hcode).elim (hmain code) (hblock code)
  have hsplit : 4 * n + 16 - 16 = main.length := by omega
  simp only [decodeResult, hlen, hversion, requireSymbols_of_symbols hsym, hsplit, List.take_left, List.drop_left]
  simp

/-- DECODE of a main cipher with a block that can be read: ill-formed bytes, success, or a wrong checksum. -/
theorem decodeV2_of_fromSymbols (c : Config) (t : CrcTable) (main : List CharCode) {block : List CharCode} {w : Word}
    (h : fromSymbols block = .ok w) :
    decodeV2 c t main block =
      if wellFormedUtf8 c (unpack main) then
        if crc t (unpack main) = w then .ok (.decoded (unpack main) true .v2)
        else .error (.integrity w (crc t (unpack main)))
      else .error (.decoding (unpack main)) := by
  rw [decodeV2, h]

/-- Changed bytes under the checksum of the true ones are reported, for what they are or by the checksum. -/
theorem decodeV2_of_crc_ne (c : Config) {t : CrcTable} {main block : List CharCode} {w : Word}
    (hblock : fromSymbols block = .ok w) (hne : crc t (unpack main) ≠ w) :
    decodeV2 c t main block = .error (.decoding (unpack main)) ∨
    decodeV2 c t main block = .error (.integrity w (crc t (unpack main))) := by
  rw [decodeV2_of_fromSymbols c t main hblock, if_neg hne]
  by_cases hutf8 : wellFormedUtf8 c (unpack main) = true
  · exact .inr (if_pos hutf8)
  · exact .inl (if_neg hutf8)

/-! ### One symbol replaced -/

/-- Bits flipped in one byte change the checksum. -/
theorem crc_buildTable_modify_ne {bytes : List Byte} {k : Nat} (hk : k < bytes.length) {change : Byte}
    (hchange : change ≠ 0#8) :
    crc buildTable (bytes.modify k (fun v => v ^^^ change)) ≠ crc buildTable bytes := by
  have hbyte : bytes[k] ^^^ change ≠ bytes[k] := fun h =>
    hchange ((BitVec.xor_right_inj bytes[k]).1 (h.trans BitVec.xor_zero.symm))
  have hsplit : bytes = bytes.take k ++ bytes[k] :: bytes.drop (k + 1) := by simp
  have hne := crc_buildTable_ne_of_byte_ne (bytes.take k) (bytes.drop (k + 1)) hbyte
  rwa [← List.modify_eq_take_cons_drop (f := fun v => v ^^^ change), ← hsplit] at hne

/-- One symbol of the main cipher replaced by another one changes the checksum of the bytes carried (R93). -/
theorem crc_buildTable_unpack_set_ne {bytes : List Byte} {j : Nat} (hj : j < 4 * bytes.length) {new : CharCode}
    (hnew : isSymbol new = true) (hne : (pack bytes)[j]? ≠ some new) :
    crc buildTable (unpack ((pack bytes).set j new)) ≠ crc buildTable bytes := by
  have hsym : ∀ code ∈ pack bytes, isSymbol code = true := fun _ => isSymbol_of_mem_pack
  have hlen := pack_length bytes
  obtain ⟨old, hold⟩ : ∃ old, (pack bytes)[j]? = some old := ⟨_, List.getElem?_eq_getElem (by omega)⟩
  have holdnew : old ≠ new := fun heq => hne (by rw [hold, heq])
  have holdsym : isSymbol old = true := hsym old (List.mem_of_getElem? hold)
  rw [unpack_set hnew (pack bytes) j hsym (by omega) hold, unpack_pack]
  exact crc_buildTable_modify_ne (by omega) (laneChange_ne_zero (Nat.mod_lt _ (by decide)) holdsym hnew holdnew)

/-- Sixteen symbols other than the block of a word carry another word. -/
theorem wordOfGroups_ne_of_ne_toSymbols {s : List CharCode} (hlen : s.length = 16)
    (hsym : ∀ code ∈ s, isSymbol code = true) {w : Word} (hne : s ≠ toSymbols w) : wordOfGroups (groupsOf s) ≠ w :=
  fun hword => hne (by rw [← hword, toSymbols_wordOfGroups hlen hsym])

/-- DECODE of well-formed bytes under another block than theirs: the block's word is expected, the bytes' checksum is
actual (R176). -/
theorem decodeResult_of_wrong_block (c : Config) (t : CrcTable) {bytes : List Byte} (hbytes : bytes ≠ [])
    (hutf8 : wellFormedUtf8 c bytes = true) {block : List CharCode} (hlen : block.length = 16)
    (hsym : ∀ code ∈ block, isSymbol code = true) (hne : block ≠ toSymbols (crc t bytes)) :
    ∃ w, w ≠ crc t bytes ∧ decodeResult c t (pack bytes ++ block) = .error (.integrity w (crc t bytes)) := by
  have hword := wordOfGroups_ne_of_ne_toSymbols hlen hsym hne
  refine ⟨_, hword, ?_⟩
  rw [decodeResult_append c t (mt List.length_eq_zero_iff.1 hbytes) (pack_length bytes) hlen
    (fun _ => isSymbol_of_mem_pack) hsym, decodeV2_of_fromSymbols c t _ (fromSymbols_of_symbols hlen hsym),
    unpack_pack, if_pos hutf8, if_neg hword.symm]

end Sys2Proof.Machine

namespace Sys2Proof.Proofs.WrongSymbol

open Sys2Proof.Machine Sys2Proof.Reference

/-- DECODE answers what its steps give (R130). -/
theorem exec_decode (s : State) (chars : List CharCode) :
    exec (.decode chars) s = .next (s.respond (responseOf (decodeResult s.config s.table chars))) :=
  exec_eq_respond _ s

/-- Settles O45: the block still carries the checksum of the true bytes, which those now carried do not have. -/
theorem oneWrongMainSymbolIsDetected : Obligations.OneWrongMainSymbolIsDetected := by
  intro s bytes htable hbytes
  refine ⟨pack bytes ++ toSymbols (crc s.table bytes), Encoding.exec_encode_of_ne_nil s hbytes,
    fun j code hj hcode hne => ?_⟩
  rw [isSym_iff] at hcode
  have hmainj : j < (pack bytes).length := by rwa [pack_length]
  rw [List.getElem?_append_left hmainj] at hne
  have hcrc : crc s.table (unpack ((pack bytes).set j code)) ≠ crc s.table bytes := by
    rw [htable]
    exact crc_buildTable_unpack_set_ne hj hcode hne
  have hsplit : decodeResult s.config s.table ((pack bytes ++ toSymbols (crc s.table bytes)).set j code) =
      decodeV2 s.config s.table ((pack bytes).set j code) (toSymbols (crc s.table bytes)) := by
    rw [List.set_append_left _ _ hmainj]
    exact decodeResult_append _ _ (mt List.length_eq_zero_iff.1 hbytes) (by rw [List.length_set, pack_length])
      (toSymbols_length _) (isSymbol_of_mem_set (fun _ => isSymbol_of_mem_pack) hcode j)
      fun _ => isSymbol_of_mem_toSymbols
  rw [exec_decode, hsplit]
  obtain hdecoding | hintegrity := decodeV2_of_crc_ne s.config (fromSymbols_toSymbols _) hcrc
  · exact .inl ⟨_, by rw [hdecoding]; rfl⟩
  · exact .inr ⟨_, _, hcrc.symm, by rw [hintegrity]; rfl⟩

/-- Settles O46: another block carries another word, since a word's block is its own. -/
theorem oneWrongChecksumSymbolChangesExpected : Obligations.OneWrongChecksumSymbolChangesExpected := by
  intro s bytes hbytes hutf8
  refine ⟨pack bytes ++ toSymbols (crc s.table bytes), Encoding.exec_encode_of_ne_nil s hbytes,
    fun j code hmin hmax hcode hne => ?_⟩
  rw [isSym_iff] at hcode
  rw [← pack_length] at hmin hmax
  rw [List.getElem?_append_right hmin] at hne
  have hblock : (toSymbols (crc s.table bytes)).set (j - (pack bytes).length) code ≠ toSymbols (crc s.table bytes) :=
    fun hsame => by
      rw [← hsame, List.getElem?_set_self (by rw [toSymbols_length]; omega)] at hne
      exact hne rfl
  obtain ⟨w, hw, hdecode⟩ := decodeResult_of_wrong_block s.config s.table hbytes hutf8
    (by rw [List.length_set, toSymbols_length])
    (isSymbol_of_mem_set (fun _ => isSymbol_of_mem_toSymbols) hcode _) hblock
  rw [← crc_eq_checksum]
  refine ⟨w, hw, ?_⟩
  rw [exec_decode, List.set_append_right _ _ hmin, hdecode]
  rfl

end Sys2Proof.Proofs.WrongSymbol
end

section
/-! The mapper and the packer, stage by stage: what each function does at each place, and that the stages are inverse
to each other (R100 to R109, R111). -/

namespace Sys2Proof.Machine

open Sys2Proof.Reference

/-! ### The mapper (R100 to R102) -/

@[simp] theorem groupOf_symOf (g : Group) : groupOf (symOf g) = some g := by
  rw [groupOf_of_isSymbol (isSymbol_symOf g), groupFor_symOf]

/-- Only the symbol of a group has that group. -/
theorem symOf_of_groupOf_eq_some {code : CharCode} {g : Group} (h : groupOf code = some g) : symOf g = code := by
  have hsym : isSymbol code = true := by rw [← groupOf_isSome, h, Option.isSome_some]
  obtain rfl : groupFor code = g := Option.some.inj ((groupOf_of_isSymbol hsym).symm.trans h)
  exact symOf_groupFor hsym

/-! ### Bit strings made of equal pieces (R103, R106) -/

/-- Element `n * k + m` of pieces of length `n` is element `m` of piece `k`. -/
theorem getElem?_flatMap_of_length_eq {α β : Type} {f : α → List β} {n : Nat} (hf : ∀ x, (f x).length = n)
    {m : Nat} (hm : m < n) (xs : List α) (k : Nat) :
    (xs.flatMap f)[n * k + m]? = xs[k]?.bind fun x => (f x)[m]? := by
  induction xs generalizing k with
  | nil => rfl
  | cons x xs ih =>
    rw [List.flatMap_cons]
    cases k with
    | zero => rw [Nat.mul_zero, Nat.zero_add, List.getElem?_append_left (by rwa [hf])]; rfl
    | succ k =>
      have hplace : n * (k + 1) + m = (f x).length + (n * k + m) := by rw [hf, Nat.mul_succ]; omega
      rw [hplace, List.getElem?_append_right (Nat.le_add_right _ _), Nat.add_sub_cancel_left, ih,
        List.getElem?_cons_succ]

/-- Bit `m` of a byte's string is bit `7 - m` of the byte (R33). -/
theorem byteBits_getElem? (v : Byte) {m : Nat} (hm : m < 8) : (byteBits v)[m]? = some (v.getLsbD (7 - m)) := by
  simp [byteBits, hm]

/-- Bit `8k + m` is bit `7 - m` of byte `k` (R103). -/
theorem bytesToBits_getElem? (bytes : List Byte) (k : Nat) {m : Nat} (hm : m < 8) :
    (bytesToBits bytes)[8 * k + m]? = bytes[k]?.map fun v => v.getLsbD (7 - m) := by
  rw [bytesToBits, getElem?_flatMap_of_length_eq byteBits_length hm, Option.map_eq_bind]
  simp only [byteBits_getElem? _ hm, Function.comp_def]

@[simp] theorem groupsToBits_nil : groupsToBits [] = [] := rfl

@[simp] theorem groupsToBits_cons (g : Group) (gs : List Group) :
    groupsToBits (g :: gs) = g.getLsbD 1 :: g.getLsbD 0 :: groupsToBits gs := rfl

/-- Bits `2j` and `2j + 1` are the high and the low bit of group `j` (R106). -/
theorem groupsToBits_getElem? (gs : List Group) (j : Nat) :
    (groupsToBits gs)[2 * j]? = gs[j]?.map (fun g => g.getLsbD 1) ∧
    (groupsToBits gs)[2 * j + 1]? = gs[j]?.map (fun g => g.getLsbD 0) := by
  have hpiece {m : Nat} (hm : m < 2) := getElem?_flatMap_of_length_eq (n := 2)
    (f := fun g : Group => [g.getLsbD 1, g.getLsbD 0]) (fun _ => rfl) hm gs j
  simp only [Option.map_eq_bind]
  exact ⟨hpiece (m := 0) (by decide), hpiece (m := 1) (by decide)⟩

/-! ### Cutting a bit string undoes joining its pieces (R105, R107) -/

/-- A byte has the eight bits it is made of. -/
theorem byteBits_byteOfBits : ∀ b7 b6 b5 b4 b3 b2 b1 b0 : Bool,
    byteBits (byteOfBits b7 b6 b5 b4 b3 b2 b1 b0) = [b7, b6, b5, b4, b3, b2, b1, b0] := by
  decide

/-- The bytes of a bit string carry its bits, without those after the last whole byte (R107). -/
theorem bytesToBits_bitsToBytes : ∀ b : List Bool, bytesToBits (bitsToBytes b) = b.take (8 * (b.length / 8))
  | [] | [_] | [_, _] | [_, _, _] | [_, _, _, _] | [_, _, _, _, _] | [_, _, _, _, _, _] | [_, _, _, _, _, _, _] => by
    simp [bitsToBytes]
  | b7 :: b6 :: b5 :: b4 :: b3 :: b2 :: b1 :: b0 :: rest => by
    have hcount : 8 * ((b7 :: b6 :: b5 :: b4 :: b3 :: b2 :: b1 :: b0 :: rest).length / 8)
        = 8 * (rest.length / 8) + 8 := by simp only [List.length_cons]; omega
    rw [bitsToBytes, bytesToBits_cons, byteBits_byteOfBits, bytesToBits_bitsToBytes rest, hcount]
    rfl

/-- A group is its two bits, the left one high (R105). -/
theorem group_eq_ofNat_bits (g : Group) : g = BitVec.ofNat 2 (2 * (g.getLsbD 1).toNat + (g.getLsbD 0).toNat) := by
  rw [ofNat_pair_eq_extractLsb' g 0, BitVec.extractLsb'_eq_self]

/-- The groups of a string of even length carry its bits. -/
theorem groupsToBits_bitsToGroups : ∀ b : List Bool, b.length % 2 = 0 → groupsToBits (bitsToGroups b) = b
  | [], _ => rfl
  | [_], h => by simp at h
  | hi :: lo :: rest, h => by
    have hrest : rest.length % 2 = 0 := by simp only [List.length_cons] at h; omega
    have hpair : ∀ hi lo : Bool, groupsToBits [BitVec.ofNat 2 (2 * hi.toNat + lo.toNat)] = [hi, lo] := by decide
    have htail := groupsToBits_bitsToGroups rest hrest
    exact congrArg₂ (· ++ ·) (hpair hi lo) htail

theorem bitsToGroups_groupsToBits (gs : List Group) : bitsToGroups (groupsToBits gs) = gs := by
  induction gs with
  | nil => rfl
  | cons g gs ih => rw [groupsToBits_cons, bitsToGroups, ← group_eq_ofNat_bits, ih]

/-- The first groups give the first bits. -/
theorem groupsToBits_take (gs : List Group) (k : Nat) : groupsToBits (gs.take k) = (groupsToBits gs).take (2 * k) := by
  induction gs generalizing k with
  | nil => simp
  | cons g gs ih =>
    cases k with
    | zero => rfl
    | succ k => rw [List.take_succ_cons, groupsToBits_cons, ih]; rfl

/-- Group `j` of a string of even length is its bits `2j` and `2j + 1` (R105). -/
theorem bitsToGroups_getElem? {b : List Bool} (heven : b.length % 2 = 0) {j : Nat} {hi lo : Bool}
    (hhi : b[2 * j]? = some hi) (hlo : b[2 * j + 1]? = some lo) :
    (bitsToGroups b)[j]? = some (BitVec.ofNat 2 (2 * hi.toNat + lo.toNat)) := by
  obtain ⟨hhigh, hlow⟩ := groupsToBits_getElem? (bitsToGroups b) j
  rw [groupsToBits_bitsToGroups b heven] at hhigh hlow
  obtain ⟨g, hg, rfl⟩ := Option.map_eq_some_iff.1 (hhigh.symm.trans hhi)
  rw [hg, Option.map_some, hlo] at hlow
  rw [hg, Option.some.inj hlow, ← group_eq_ofNat_bits]

theorem bitsToGroups_length {b : List Bool} {m : Nat} (h : b.length = 2 * m) : (bitsToGroups b).length = m := by
  have hbits := groupsToBits_length (bitsToGroups b)
  rw [groupsToBits_bitsToGroups b (by omega)] at hbits
  omega

/-- Bit `7 - m` of byte `k` is bit `8k + m` of the string (R107). -/
theorem getElem?_of_bitsToBytes_getElem? {b : List Bool} {k m : Nat} {v : Byte} (hm : m < 8)
    (hv : (bitsToBytes b)[k]? = some v) : b[8 * k + m]? = some (v.getLsbD (7 - m)) := by
  have hbit := bytesToBits_getElem? (bitsToBytes b) k hm
  have hwhole : 8 * k + m < 8 * (b.length / 8) := by
    obtain ⟨hk, -⟩ := List.getElem?_eq_some_iff.1 hv
    rw [bitsToBytes_length] at hk
    omega
  rwa [hv, Option.map_some, bytesToBits_bitsToBytes, List.getElem?_take_of_lt hwhole] at hbit

/-! ### Pack undoes Unpack on whole bytes -/

/-- Every stage is undone in turn; what `BitsToBytes` dropped is missing (R108, R109). -/
theorem pack_unpack {s : List CharCode} (h : ∀ code ∈ s, isSymbol code = true) :
    pack (unpack s) = s.take (4 * (s.length / 4)) := by
  have hcount : 8 * ((groupsToBits (groupsOf s)).length / 8) = 2 * (4 * (s.length / 4)) := by
    rw [groupsToBits_length, groupsOf_length s h]
    omega
  calc pack (unpack s)
      = (bitsToGroups (bytesToBits (bitsToBytes (groupsToBits (groupsOf s))))).map symOf := pack_eq_map_symOf _
    _ = (bitsToGroups (groupsToBits ((groupsOf s).take (4 * (s.length / 4))))).map symOf := by
        rw [bytesToBits_bitsToBytes, hcount, groupsToBits_take]
    _ = ((groupsOf s).map symOf).take (4 * (s.length / 4)) := by rw [bitsToGroups_groupsToBits, List.map_take]
    _ = s.take (4 * (s.length / 4)) := by rw [map_symOf_groupsOf h]

/-! ### The bytes of a symbol sequence in closed form (R60, R109) -/

/-- The lanes of a byte are its digits to base 4. -/
theorem xor_lanes_eq_ofNat : ∀ g0 g1 g2 g3 : Group, inLane 0 g0 ^^^ inLane 1 g1 ^^^ inLane 2 g2 ^^^ inLane 3 g3 =
    BitVec.ofNat 8 (64 * g0.toNat + 16 * g1.toNat + 4 * g2.toNat + g3.toNat) := by
  decide +kernel

theorem unpacked_length (s : List CharCode) : (unpacked s).length = s.length / 4 := by
  rw [unpacked, List.length_map, List.length_range]

/-- Four codes in front add their byte in front. -/
theorem unpacked_cons_four (a b c d : CharCode) (rest : List CharCode) :
    unpacked (a :: b :: c :: d :: rest) =
      BitVec.ofNat 8 (64 * groupNumber a + 16 * groupNumber b + 4 * groupNumber c + groupNumber d)
        :: unpacked rest := by
  have hcount : (a :: b :: c :: d :: rest).length / 4 = rest.length / 4 + 1 := by
    simp only [List.length_cons]
    omega
  rw [unpacked, hcount, List.range_succ_eq_map, List.map_cons, List.map_map]
  rfl

/-- Fewer than four symbols carry no byte (R183). -/
theorem unpack_eq_unpacked_of_length_lt {s : List CharCode} (h : ∀ code ∈ s, isSymbol code = true)
    (hshort : s.length < 4) : unpack s = unpacked s := by
  have hcount : s.length / 4 = 0 := Nat.div_eq_of_lt hshort
  rw [List.eq_nil_of_length_eq_zero ((unpack_length h).trans hcount), unpacked, hcount]
  rfl

/-- Every four symbols carry their digits to base 4 as a byte. -/
theorem unpack_eq_unpacked : ∀ s : List CharCode, (∀ code ∈ s, isSymbol code = true) → unpack s = unpacked s
  | [], h | [_], h | [_, _], h | [_, _, _], h => unpack_eq_unpacked_of_length_lt h (by simp)
  | a :: b :: c :: d :: rest, h => by
    simp only [List.forall_mem_cons] at h
    obtain ⟨ha, hb, hc, hd, hrest⟩ := h
    rw [unpack_cons_four ha hb hc hd, unpacked_cons_four, unpack_eq_unpacked rest hrest, byteOfSymbols,
      xor_lanes_eq_ofNat, groupNumber_eq_toNat ha, groupNumber_eq_toNat hb, groupNumber_eq_toNat hc,
      groupNumber_eq_toNat hd]

/-- The symbol check reports the leftmost element that is no symbol (R174). -/
theorem requireSymbols_of_firstBad {s : List CharCode} {c p : Nat} (h : FirstBad s c p) :
    requireSymbols s = .error (.validation c p) := by
  rw [requireSymbols, firstNonSymbol_of_firstBad h]

end Sys2Proof.Machine

namespace Sys2Proof.Proofs.SymbolPacker

open Sys2Proof.Machine Sys2Proof.Reference

/-- Settles O33: each function that cuts a bit string is read through the one that joins the pieces again. -/
theorem packerFunctionsBitByBit : Obligations.PackerFunctionsBitByBit := by
  refine ⟨fun bytes => ⟨bytesToBits_length bytes, fun k m hm => ?bytes⟩,
    fun b => ⟨fun heven => if_pos heven, fun hodd => ?odd⟩,
    fun b m hlen => ⟨bitsToGroups_length hlen, fun j hi lo => ?groups⟩,
    fun gs => ⟨groupsToBits_length gs, groupsToBits_getElem? gs⟩,
    fun b => ⟨bitsToBytes_length b, fun k m v hm hv => ?cut⟩⟩
  case bytes => exact bytesToBits_getElem? bytes k (Nat.lt_succ_of_le hm)
  case odd => exact if_neg (by omega)
  case groups => exact bitsToGroups_getElem? (by omega)
  case cut => exact getElem?_of_bitsToBytes_getElem? (Nat.lt_succ_of_le hm) hv

/-- SYM.UNPACK of symbols in closed form (R111). -/
theorem exec_symUnpack_eq_unpacked (s : State) {chars : List CharCode} (h : ∀ code ∈ chars, IsSym code) :
    exec (.symUnpack chars) s = .next (s.respond (.bytes (unpacked chars))) := by
  simp only [isSym_iff] at h
  rw [exec_symUnpack_of_symbols s h, unpack_eq_unpacked chars h]

/-- Settles O35: the two outcomes of the symbol check; the corner values are computed from the closed form. -/
theorem symUnpackRecoversWholeBytes : Obligations.SymUnpackRecoversWholeBytes := by
  refine ⟨fun s chars => exec_symUnpack_eq_unpacked s, fun s chars c p hbad => ?bad, unpacked_length,
    fun s => ⟨?empty, ?six, ?eight⟩, fun c arg chars hwf => ?decode⟩
  case bad =>
    rw [exec_eq_respond, answer, requireSymbols_of_firstBad hbad]
    rfl
  case empty => exact exec_symUnpack_eq_unpacked s (by simp)
  case six => exact exec_symUnpack_eq_unpacked s (by simp [IsSym])
  case eight => exact exec_symUnpack_eq_unpacked s (by simp [IsSym])
  case decode =>
    obtain ⟨hacc, hfits⟩ := Bool.and_eq_true_iff.1 hwf
    refine (decode_of_accepted c ⟨0x06#8, arg, chars⟩ hacc).trans ?_
    rw [decodeAccepted_symUnpack, readChars_of_charFits hfits]
    rfl

/-- Settles O36. -/
theorem packAndUnpackAreInverse : Obligations.PackAndUnpackAreInverse := by
  refine ⟨unpack_pack, fun s hsym => ?_⟩
  simp only [isSym_iff] at hsym
  exact pack_unpack hsym

/-- Settles O32: a group exists exactly for a symbol, and it is the one the symbol came from. -/
theorem symbolMappingIsABijection : Obligations.SymbolMappingIsABijection := by
  refine ⟨rfl, rfl, rfl, rfl, groupOf_symOf, fun _ _ => symOf_of_groupOf_eq_some, isSymbol_iff, fun code => ?_⟩
  rw [groupOf_isSome, isSym_iff]

end Sys2Proof.Proofs.SymbolPacker
end

section
/-! DETECT and DECODE outcome by outcome. Symbols of whole bytes are the main cipher of the bytes they carry, and
sixteen symbols the block of the word they carry, so every input DECODE accepts is what the packer gives (R120, R130). -/

namespace Sys2Proof.Machine

open Sys2Proof.Reference

/-! ### DETECT by length -/

/-- Every length has one of the three shapes of R120. -/
theorem length_shape (n : Nat) : (20 ≤ n ∧ n % 4 = 0) ∨ (4 ≤ n ∧ n ≤ 16 ∧ n % 4 = 0) ∨ (n % 4 ≠ 0 ∨ n = 0) := by
  omega

theorem detect_of_v2 {n : Nat} (h : 20 ≤ n ∧ n % 4 = 0) :
    detect n = { version := .v2, hasCrc := true, mainLen := n - 16, crcLen := 16, isValid := true } :=
  if_pos (by omega)

theorem detect_of_v1 {n : Nat} (h : 4 ≤ n ∧ n ≤ 16 ∧ n % 4 = 0) :
    detect n = { version := .v1, hasCrc := false, mainLen := n, crcLen := 0, isValid := true } := by
  rw [detect, if_neg (by omega), if_pos (by omega)]

theorem detect_of_unknown {n : Nat} (h : n % 4 ≠ 0 ∨ n = 0) :
    detect n = { version := .unknown, hasCrc := false, mainLen := 0, crcLen := 0, isValid := false } := by
  rw [detect, if_neg (by omega), if_neg (by omega)]

theorem detect_version_v1_iff (n : Nat) : (detect n).version = .v1 ↔ 4 ≤ n ∧ n ≤ 16 ∧ n % 4 = 0 := by
  refine ⟨fun hversion => ?_, fun h => by rw [detect_of_v1 h]⟩
  obtain h | h | h := length_shape n
  · rw [detect_of_v2 h] at hversion; cases hversion
  · exact h
  · rw [detect_of_unknown h] at hversion; cases hversion

theorem detect_version_ne_unknown {n : Nat} (hn : n ≠ 0) (hfour : n % 4 = 0) : (detect n).version ≠ .unknown := by
  obtain h | h | h := length_shape n
  · rw [detect_of_v2 h]; nofun
  · rw [detect_of_v1 h]; nofun
  · omega

/-! ### Symbols are what the packer gives -/

/-- Symbols of whole bytes are the main cipher of those bytes (R60). -/
theorem pack_unpacked {s : List CharCode} (hsym : ∀ code ∈ s, IsSym code) (hfour : s.length % 4 = 0) :
    pack (unpacked s) = s := by
  simp only [isSym_iff] at hsym
  rw [← unpack_eq_unpacked s hsym, pack_unpack hsym, List.take_of_length_le (by omega)]

theorem unpacked_pack (bytes : List Byte) : unpacked (pack bytes) = bytes := by
  rw [← unpack_eq_unpacked _ fun _ => isSymbol_of_mem_pack, unpack_pack]

/-- Sixteen symbols are the block of the word they carry (R88). -/
theorem toSymbols_blockValue {s : List CharCode} (hlen : s.length = 16) (hsym : ∀ code ∈ s, IsSym code) :
    toSymbols (blockValue s) = s := by
  simp only [isSym_iff] at hsym
  rw [← wordOfGroups_eq_blockValue hlen hsym, toSymbols_wordOfGroups hlen hsym]

theorem blockValue_toSymbols (w : Word) : blockValue (toSymbols w) = w := by
  have hsym : ∀ code ∈ toSymbols w, isSymbol code = true := fun _ => isSymbol_of_mem_toSymbols
  have hread := fromSymbols_of_symbols (toSymbols_length w) hsym
  rw [fromSymbols_toSymbols, wordOfGroups_eq_blockValue (toSymbols_length w) hsym] at hread
  exact (Except.ok.inj hread).symm

/-- A byte joined on the right puts the others eight bits higher. -/
theorem extractLsb'_succ_append_byte {n : Nat} (x : BitVec n) (v : Byte) (k : Nat) :
    (x ++ v).extractLsb' (k + 8) 8 = x.extractLsb' k 8 := by
  rw [BitVec.extractLsb'_append_eq_of_le (Nat.le_add_left 8 k), Nat.add_sub_cancel]

/-- The block of a word is the main cipher of its four bytes in big-endian order (R35, R135). -/
theorem toSymbols_append_bytes (a b c d : Byte) : toSymbols (a ++ b ++ c ++ d) = pack [a, b, c, d] := by
  have ha : BitVec.extractLsb' 24 8 (a ++ b ++ c ++ d) = a := by
    rw [extractLsb'_succ_append_byte _ d 16, extractLsb'_succ_append_byte _ c 8, BitVec.extractLsb'_append_eq_left]
  have hb : BitVec.extractLsb' 16 8 (a ++ b ++ c ++ d) = b := by
    rw [extractLsb'_succ_append_byte _ d 8, extractLsb'_succ_append_byte _ c 0, BitVec.extractLsb'_append_eq_right]
  have hc : BitVec.extractLsb' 8 8 (a ++ b ++ c ++ d) = c := by
    rw [extractLsb'_succ_append_byte _ d 0, BitVec.extractLsb'_append_eq_right]
  have hd : BitVec.extractLsb' 0 8 (a ++ b ++ c ++ d) = d := BitVec.extractLsb'_append_eq_right
  rw [toSymbols_eq_block, block_eq_packed, ha, hb, hc, hd, pack_eq_packed]

/-! ### The outcomes of DECODE -/

theorem decodeResult_of_ragged (c : Config) (t : CrcTable) {s : List CharCode} (h : s.length % 4 ≠ 0) :
    decodeResult c t s = .error .format := by
  have hne : s.length ≠ 0 := fun hzero => h (by rw [hzero])
  rw [decodeResult, if_neg hne, detect_of_unknown (.inl h)]
  rfl

/-- The symbol check comes before the bytes are looked at (R178). -/
theorem decodeResult_of_firstBad (c : Config) (t : CrcTable) {s : List CharCode} {code pos : Nat}
    (hfour : s.length % 4 = 0) (h : FirstBad s code pos) :
    decodeResult c t s = .error (.validation code pos) := by
  obtain ⟨hmin, hmax⟩ := position_of_firstBad h
  have hne : s.length ≠ 0 := by omega
  rw [decodeResult, if_neg hne, if_neg (detect_version_ne_unknown hne hfour), requireSymbols_of_firstBad h]

/-- The main cipher of one to four bytes is read as v1. -/
theorem decodeResult_pack (c : Config) (t : CrcTable) {bytes : List Byte} (hmin : 1 ≤ bytes.length)
    (hmax : bytes.length ≤ 4) :
    decodeResult c t (pack bytes) =
      if wellFormedUtf8 c bytes = true then .ok (.decoded bytes false .v1) else .error (.decoding bytes) := by
  have hlen := pack_length bytes
  have hversion : (detect (pack bytes).length).version = .v1 := (detect_version_v1_iff _).2 (by omega)
  have hsym : requireSymbols (pack bytes) = .ok () := requireSymbols_of_symbols fun _ => isSymbol_of_mem_pack
  have hne : (pack bytes).length ≠ 0 := by omega
  simp only [decodeResult, if_neg hne, hversion, hsym, decodeV1, unpack_pack]
  rfl

/-- A main cipher with the block of any word is read as v2. -/
theorem decodeResult_pack_append (c : Config) (t : CrcTable) {bytes : List Byte} (hbytes : bytes ≠ []) (w : Word) :
    decodeResult c t (pack bytes ++ toSymbols w) =
      if wellFormedUtf8 c bytes = true then
        if checksum t bytes = w then .ok (.decoded bytes true .v2) else .error (.integrity w (checksum t bytes))
      else .error (.decoding bytes) := by
  rw [decodeResult_append c t (mt List.length_eq_zero_iff.1 hbytes) (pack_length bytes) (toSymbols_length w)
    (fun _ => isSymbol_of_mem_pack) (fun _ => isSymbol_of_mem_toSymbols),
    decodeV2_of_fromSymbols c t _ (fromSymbols_toSymbols w), unpack_pack, crc_eq_checksum]

/-- The inputs of DECODE, one case per line of R130. -/
inductive DecodeInput : List CharCode → Prop
  | empty : DecodeInput []
  | ragged (chars : List CharCode) (h : chars.length % 4 ≠ 0) : DecodeInput chars
  | badSymbol (chars : List CharCode) (code pos : Nat) (hfour : chars.length % 4 = 0)
      (h : FirstBad chars code pos) : DecodeInput chars
  | v1 (bytes : List Byte) (hmin : 1 ≤ bytes.length) (hmax : bytes.length ≤ 4) : DecodeInput (pack bytes)
  | v2 (bytes : List Byte) (w : Word) (h : bytes ≠ []) : DecodeInput (pack bytes ++ toSymbols w)

/-- Symbols without an offender pass, others have a leftmost offender (R174). -/
theorem all_isSym_or_firstBad (s : List CharCode) : (∀ code ∈ s, IsSym code) ∨ ∃ code pos, FirstBad s code pos := by
  obtain ⟨-, hsym⟩ | ⟨code, pos, -, hbad⟩ := requireSymbols_cases s
  · exact .inl fun code hcode => (isSym_iff code).2 (hsym code hcode)
  · obtain ⟨pre, post, hs, hpre, hcode, hpos⟩ := (firstNonSymbol_eq_some_iff 1 s code pos).1 hbad
    refine .inr ⟨code, pos, pre, post, hs, fun x hx => (isSym_iff x).2 (hpre x hx), ?_, by omega⟩
    simp [isSym_iff, hcode]

/-- Symbols of one to four whole bytes are the main cipher of those bytes. -/
theorem exists_pack_of_short {s : List CharCode} (hsym : ∀ code ∈ s, IsSym code) (hfour : s.length % 4 = 0)
    (hmin : 0 < s.length) (hmax : s.length ≤ 16) :
    1 ≤ (unpacked s).length ∧ (unpacked s).length ≤ 4 ∧ pack (unpacked s) = s := by
  have hlen := unpacked_length s
  exact ⟨by omega, by omega, pack_unpacked hsym hfour⟩

/-- Symbols of whole bytes before sixteen more are the main cipher of those bytes before the block of a word. -/
theorem unpacked_ne_nil_and_pack_append {main blk : List CharCode} (hsym : ∀ code ∈ main ++ blk, IsSym code)
    (hblk : blk.length = 16) (hmain : main ≠ []) (hfour : main.length % 4 = 0) :
    unpacked main ≠ [] ∧ pack (unpacked main) ++ toSymbols (blockValue blk) = main ++ blk := by
  obtain ⟨hmainsym, hblksym⟩ := List.forall_mem_append.1 hsym
  rw [pack_unpacked hmainsym hfour, toSymbols_blockValue hblk hblksym]
  have hlen := unpacked_length main
  have hpos := List.length_pos_iff.2 hmain
  exact ⟨List.ne_nil_of_length_pos (by omega), rfl⟩

/-- DECODE's case distinction leaves nothing out. -/
theorem decodeInput (chars : List CharCode) : DecodeInput chars := by
  by_cases hfour : chars.length % 4 = 0
  case neg => exact .ragged chars hfour
  obtain hsym | ⟨code, pos, hbad⟩ := all_isSym_or_firstBad chars
  case inr => exact .badSymbol chars code pos hfour hbad
  obtain h | h | h := length_shape chars.length
  · obtain ⟨hne, hsplit⟩ := unpacked_ne_nil_and_pack_append (main := chars.take (chars.length - 16))
      (blk := chars.drop (chars.length - 16)) (by rwa [List.take_append_drop]) (by rw [List.length_drop]; omega)
      (List.ne_nil_of_length_pos (by rw [List.length_take]; omega)) (by rw [List.length_take]; omega)
    rw [List.take_append_drop] at hsplit
    exact hsplit ▸ .v2 _ _ hne
  · obtain ⟨hmin, hmax, hpack⟩ := exists_pack_of_short hsym hfour (by omega) (by omega)
    exact hpack ▸ .v1 _ hmin hmax
  · obtain rfl : chars = [] := List.eq_nil_of_length_eq_zero (by omega)
    exact .empty

/-- The inputs DECODE answers with `OK`, and what it then answers (R130, R132). -/
theorem decodeResult_eq_decoded_iff (c : Config) (t : CrcTable) (chars : List CharCode) (out : List Byte)
    (verified : Bool) (version : Version) :
    decodeResult c t chars = .ok (.decoded out verified version) ↔
      (chars = [] ∧ out = [] ∧ verified = false ∧ version = .empty) ∨
      (chars = pack out ∧ 1 ≤ out.length ∧ out.length ≤ 4 ∧ wellFormedUtf8 c out = true ∧ verified = false ∧
        version = .v1) ∨
      (chars = pack out ++ toSymbols (checksum t out) ∧ out ≠ [] ∧ wellFormedUtf8 c out = true ∧ verified = true ∧
        version = .v2) := by
  constructor
  · intro h
    cases decodeInput chars with
    | empty => cases h; exact .inl ⟨rfl, rfl, rfl, rfl⟩
    | ragged _ hragged => rw [decodeResult_of_ragged c t hragged] at h; cases h
    | badSymbol _ code pos hfour hbad => rw [decodeResult_of_firstBad c t hfour hbad] at h; cases h
    | v1 bytes hmin hmax =>
      rw [decodeResult_pack c t hmin hmax] at h
      split at h <;> cases h
      exact .inr (.inl ⟨rfl, hmin, hmax, ‹_›, rfl, rfl⟩)
    | v2 bytes w hne =>
      rw [decodeResult_pack_append c t hne] at h
      split at h
      case isFalse => cases h
      case isTrue hutf8 =>
        split at h <;> cases h
        case isTrue hcrc => exact .inr (.inr ⟨by rw [hcrc], hne, hutf8, rfl, rfl⟩)
  · rintro (⟨rfl, rfl, rfl, rfl⟩ | ⟨rfl, hmin, hmax, hutf8, rfl, rfl⟩ | ⟨rfl, hne, hutf8, rfl, rfl⟩)
    · rfl
    · rw [decodeResult_pack c t hmin hmax, if_pos hutf8]
    · rw [decodeResult_pack_append c t hne, if_pos hutf8, if_pos rfl]

/-! ### The responses of DECODE -/

/-- A result is a response that is no error exactly when it is that response. -/
theorem responseOf_eq_decoded_iff (x : Except OpError Response) (out : List Byte) (verified : Bool)
    (version : Version) :
    responseOf x = .decoded out verified version ↔ x = .ok (.decoded out verified version) := by
  cases x <;> simp [responseOf]

/-- Where the active lane exists, the state after DECODE tells its response. -/
theorem exec_decode_eq_next_iff (s : State) (chars : List CharCode) (r : Response)
    (hactive : s.active < s.lanes.length) :
    exec (.decode chars) s = .next (s.respond r) ↔ responseOf (decodeResult s.config s.table chars) = r := by
  rw [exec_eq_respond, answer]
  refine ⟨fun h => ?_, fun h => by rw [h]⟩
  exact s.respond_inj _ _ hactive (by injection h)

/-- DECODE of the main cipher of one to four bytes (R130). -/
theorem exec_decode_pack (s : State) {bytes : List Byte} (hmin : 1 ≤ bytes.length) (hmax : bytes.length ≤ 4) :
    exec (.decode (pack bytes)) s = .next (s.respond (
      if wellFormedUtf8 s.config bytes = true then .decoded bytes false .v1 else .error (.decoding bytes))) := by
  rw [exec_eq_respond, answer, decodeResult_pack _ _ hmin hmax]
  split <;> rfl

/-- DECODE of a main cipher with the block of a word (R130). -/
theorem exec_decode_pack_append (s : State) {bytes : List Byte} (hbytes : bytes ≠ []) (w : Word) :
    exec (.decode (pack bytes ++ toSymbols w)) s = .next (s.respond (
      if wellFormedUtf8 s.config bytes = true then
        if checksum s.table bytes = w then .decoded bytes true .v2
        else .error (.integrity w (checksum s.table bytes))
      else .error (.decoding bytes))) := by
  rw [exec_eq_respond, answer, decodeResult_pack_append _ _ hbytes]
  split
  · split <;> rfl
  · rfl

end Sys2Proof.Machine

namespace Sys2Proof.Proofs.Codec

open Sys2Proof.Machine Sys2Proof.Reference

/-- Settles O43: ENCODE's output is a main cipher with the block of its own checksum. -/
theorem decodingAnEncodedPlaintextGivesIt : Obligations.DecodingAnEncodedPlaintextGivesIt := by
  intro s bytes
  refine ⟨ciphertextOf s.table bytes, exec_eq_respond _ s, ?empty, fun hne hutf8 => ?wellFormed,
    fun hne hutf8 => ?illFormed⟩
  case empty => rintro rfl; exact exec_eq_respond _ s
  case wellFormed =>
    rw [ciphertextOf_of_ne_nil s.table hne, crc_eq_checksum, exec_decode_pack_append s hne, if_pos hutf8, if_pos rfl]
  case illFormed =>
    rw [ciphertextOf_of_ne_nil s.table hne, exec_decode_pack_append s hne, if_neg (by simp [hutf8])]

/-- Settles O41: symbols are rewritten as what the packer gives for the bytes they carry. -/
theorem decodeFollowsItsSteps : Obligations.DecodeFollowsItsSteps := by
  refine ⟨fun s => exec_eq_respond _ s, fun s chars hragged => ?ragged, fun s chars c p hfour hbad => ?bad,
    fun s chars hfour hmin hmax hsym => ?v1, ?v2⟩
  case ragged => rw [exec_eq_respond, answer, decodeResult_of_ragged _ _ hragged]; rfl
  case bad => rw [exec_eq_respond, answer, decodeResult_of_firstBad _ _ hfour hbad]; rfl
  case v1 =>
    obtain ⟨hone, hfourBytes, hpack⟩ := exists_pack_of_short hsym hfour hmin hmax
    have hexec := exec_decode_pack s hone hfourBytes
    rwa [hpack] at hexec
  case v2 =>
    rintro s chars main blk rfl hblk hmain hfour hsym
    obtain ⟨hne, hsplit⟩ := unpacked_ne_nil_and_pack_append hsym hblk hmain hfour
    have hexec := exec_decode_pack_append s hne (blockValue blk)
    rwa [hsplit] at hexec

/-- Settles O42: the three kinds of input that DECODE answers with `OK`, read back from what the packer gives. -/
theorem verifiedMeansTheChecksumMatched : Obligations.VerifiedMeansTheChecksumMatched := by
  intro s chars out version hactive
  rw [exec_decode_eq_next_iff s chars _ hactive, exec_decode_eq_next_iff s chars _ hactive,
    responseOf_eq_decoded_iff, responseOf_eq_decoded_iff, decodeResult_eq_decoded_iff, decodeResult_eq_decoded_iff]
  refine ⟨⟨?ofTrue, ?toTrue⟩, ⟨?ofFalse, ?toFalse⟩⟩
  case ofTrue =>
    rintro (⟨-, -, hflag, -⟩ | ⟨-, -, -, -, hflag, -⟩ | ⟨rfl, hne, hutf8, -, rfl⟩)
    · cases hflag
    · cases hflag
    · have hlen := pack_length out
      have hpos := List.length_pos_iff.2 hne
      refine ⟨pack out, toSymbols (checksum s.table out), rfl, toSymbols_length _,
        List.ne_nil_of_length_pos (by omega), by omega, List.forall_mem_append.2 ⟨?_, ?_⟩, (unpacked_pack out).symm,
        hutf8, (blockValue_toSymbols _).symm, rfl⟩
      · exact fun code hcode => (isSym_iff code).2 (isSymbol_of_mem_pack hcode)
      · exact fun code hcode => (isSym_iff code).2 (isSymbol_of_mem_toSymbols hcode)
  case toTrue =>
    rintro ⟨main, blk, rfl, hblk, hmain, hfour, hsym, rfl, hutf8, hcrc, rfl⟩
    obtain ⟨hne, hsplit⟩ := unpacked_ne_nil_and_pack_append hsym hblk hmain hfour
    exact .inr (.inr ⟨by rw [hcrc, hsplit], hne, hutf8, rfl, rfl⟩)
  case ofFalse =>
    rintro (⟨rfl, rfl, -, rfl⟩ | ⟨rfl, hmin, hmax, hutf8, -, rfl⟩ | ⟨-, -, -, hflag, -⟩)
    · exact .inl ⟨rfl, rfl, rfl⟩
    · have hlen := pack_length out
      exact .inr ⟨(detect_version_v1_iff _).2 (by omega),
        fun code hcode => (isSym_iff code).2 (isSymbol_of_mem_pack hcode), (unpacked_pack out).symm, hutf8, rfl⟩
    · cases hflag
  case toFalse =>
    rintro (⟨rfl, rfl, rfl⟩ | ⟨hversion, hsym, rfl, hutf8, rfl⟩)
    · exact .inl ⟨rfl, rfl, rfl, rfl⟩
    · obtain ⟨hfour, hsixteen, hwhole⟩ := (detect_version_v1_iff _).1 hversion
      obtain ⟨hmin, hmax, hpack⟩ := exists_pack_of_short hsym hwhole (by omega) hsixteen
      exact .inr (.inl ⟨hpack.symm, hmin, hmax, hutf8, rfl, rfl⟩)

/-- Settles O44: the main cipher of the last four bytes is the block of the word they make. -/
theorem longV1CiphertextsAreReadAsV2 : Obligations.LongV1CiphertextsAreReadAsV2 := by
  refine ⟨fun s bytes hmin hmax => ?short, fun s front a b c d hfront => ?long⟩
  case short => rw [← pack_eq_packed, exec_decode_pack s hmin hmax]
  case long =>
    rw [packed_append, ← pack_eq_packed, ← pack_eq_packed, ← toSymbols_append_bytes]
    exact exec_decode_pack_append s hfront _

/-- Settles O38, shape of length by shape of length. -/
theorem detectTellsTheFormatByLength : Obligations.DetectTellsTheFormatByLength := by
  intro s chars
  refine ⟨detect chars.length, exec_eq_respond _ s, ?_⟩
  generalize chars.length = n
  obtain h | h | h := length_shape n
  · rw [detect_of_v2 h]
    exact ⟨iff_of_true rfl (by omega), iff_of_false nofun (by omega), iff_of_true rfl h, iff_of_false nofun (by omega),
      iff_of_false nofun (by omega), iff_of_true rfl nofun, fun _ => ⟨rfl, rfl, rfl⟩, nofun⟩
  · rw [detect_of_v1 h]
    exact ⟨iff_of_false nofun (by omega), iff_of_true rfl (by omega), iff_of_false nofun (by omega),
      iff_of_true rfl (by omega), iff_of_false nofun (by omega), iff_of_true rfl nofun, nofun, fun _ => ⟨rfl, rfl, rfl⟩⟩
  · rw [detect_of_unknown h]
    exact ⟨iff_of_false nofun (by omega), iff_of_false nofun (by omega), iff_of_false nofun (by omega),
      iff_of_false nofun (by omega), iff_of_true rfl h, iff_of_false nofun fun hknown => hknown rfl, nofun, nofun⟩

end Sys2Proof.Proofs.Codec
end

section
/-! Every event the outside world may present has a step: a presentable record is decoded or its word is reserved, and
either has an answer (R64, R136, R180, R184). -/

namespace Sys2Proof

/-- Bytes are read by format B (R63). -/
theorem readBytes_of_bytes {input : List Nat} (h : ∀ v ∈ input, v < 256) :
    readBytes input = .ok (input.map (BitVec.ofNat 8)) :=
  (readBytes_ok_iff input _).2 ⟨h, rfl⟩

/-- Codes of `CHAR_W` bits are read by format S (R63). -/
theorem readChars_of_codes {c : Config} {input : List Nat} (h : ∀ v ∈ input, v < 2 ^ c.charW) :
    readChars c input = .ok input :=
  (readChars_ok_iff c input _).2 ⟨h, rfl⟩

/-- A record the host can present is an operation or its word is reserved (R62, R64). -/
theorem decodeAccepted_of_presentable {c : Config} {r : Command} (h : r.Presentable c) :
    (∃ i, decodeAccepted c r = .ok i) ∨ decodeAccepted c r = .error .reserved := by
  obtain ⟨-, hbytes, hcodes⟩ := h
  obtain ⟨cmd, arg, input⟩ := r
  cases cmd using commandWord_cases with
  | reserved w hw => exact .inr (decodeAccepted_reserved c _ hw)
  | crcTblrd | crcTosym => simp
  | crcCalc | symPack | encode => simp [readBytes_of_bytes (hbytes (by simp)), Except.map]
  | crcFromsym | symUnpack | decode | detect | validate | quality =>
    simp [readChars_of_codes (hcodes (by simp)), Except.map]

end Sys2Proof

namespace Sys2Proof.Machine

/-- Whatever the host can present has an answer. -/
theorem exists_answersRecord_of_presentable {c : Config} (t : CrcTable) {r : Command} (h : r.Presentable c) :
    ∃ x, AnswersRecord c t r x := by
  have hcases := decodeAccepted_of_presentable h
  obtain ⟨hlen, -, -⟩ := h
  have hdecode := decode_of_accepted c r ((c.accepts_iff r.inLen).2 hlen)
  obtain ⟨i, hi⟩ | hreserved := hcases
  · exact ⟨_, .inl ⟨i, hdecode.trans hi, rfl⟩⟩
  · exact ⟨_, .inr ⟨hdecode.trans hreserved, rfl⟩⟩

/-- Responses are taken from a lane the block has (R204). -/
theorem handle_take {s : State} {k : Nat} (h : k < s.lanes.length) : handle (.take k) s = .next (s.take k) := by
  simp [handle, h]

end Sys2Proof.Machine

namespace Sys2Proof.Proofs.AcceptableEvents

open Sys2Proof.Machine

/-- Settles O15, kind of event by kind of event. -/
theorem acceptableEventsAlwaysStep : Obligations.AcceptableEventsAlwaysStep := by
  intro s e rest hhost hacceptable
  cases e with
  | issue k r =>
    obtain ⟨hlane, hrecord⟩ := hacceptable
    obtain ⟨x, hx⟩ := exists_answersRecord_of_presentable s.table hrecord
    exact ⟨s.afterIssue k rest x, (step_issue_iff hhost).2 ⟨hlane, x, hx, rfl⟩, rfl⟩
  | take k => exact ⟨_, (step_event s _ rest hhost).trans (handle_take hacceptable), rfl⟩
  | reset => exact ⟨_, step_event s _ rest hhost, rfl⟩

end Sys2Proof.Proofs.AcceptableEvents
end

section
/-! The UTF-8 test as a language: the scan accepts what matches the ranges still due and then goes on with whole rows
of the table (R133). -/

namespace Sys2Proof.Machine

open Sys2Proof.Reference

/-! ### One row of the table -/

/-- Bytes that lie one by one in the ranges. -/
def MatchesRanges (ranges : List ByteRange) (bytes : List Byte) : Prop :=
  List.Forall₂ (fun r b => r.has b = true) ranges bytes

@[simp] theorem matchesRanges_nil_nil : MatchesRanges [] [] := .nil
@[simp] theorem not_matchesRanges_nil_cons (b : Byte) (rest : List Byte) : ¬ MatchesRanges [] (b :: rest) := nofun
@[simp] theorem not_matchesRanges_cons_nil (r : ByteRange) (more : List ByteRange) : ¬ MatchesRanges (r :: more) [] :=
  nofun
@[simp] theorem matchesRanges_cons_cons (r : ByteRange) (more : List ByteRange) (b : Byte) (rest : List Byte) :
    MatchesRanges (r :: more) (b :: rest) ↔ r.has b = true ∧ MatchesRanges more rest :=
  List.forall₂_cons

theorem ByteRange.has_iff (r : ByteRange) (b : Byte) :
    r.has b = true ↔ r.lo.toNat ≤ b.toNat ∧ b.toNat ≤ r.hi.toNat := by
  simp [ByteRange.has, BitVec.le_def]

/-- Bytes of one row as the machine's table has it. -/
def MatchesTable (bytes : List Byte) : Prop := ∃ row ∈ utf8Rows, MatchesRanges (row.1 :: row.2) bytes

/-- The machine's table is the table of the rule, compared length by length. -/
theorem matchesTable_iff_utf8Row (bytes : List Byte) : MatchesTable bytes ↔ Utf8Row bytes := by
  unfold MatchesTable Utf8Row
  rcases bytes with _ | ⟨a, _ | ⟨b, _ | ⟨c, _ | ⟨d, _ | ⟨e, rest⟩⟩⟩⟩⟩
  case nil => simp
  case cons.nil => simp [utf8Rows, ByteRange.has_iff]
  case cons.cons.nil => simp [utf8Rows, contRange, ByteRange.has_iff, and_assoc]
  case cons.cons.cons.nil =>
    simp [utf8Rows, contRange, ByteRange.has_iff]
    omega
  case cons.cons.cons.cons.nil =>
    simp [utf8Rows, contRange, ByteRange.has_iff]
    omega
  case cons.cons.cons.cons.cons => simp [utf8Rows]

/-- First bytes come in ascending ranges, so no byte begins two rows. -/
theorem utf8Rows_ascending : utf8Rows.Pairwise fun row row' => row.1.hi < row'.1.lo := by
  decide

/-- Looking up a first byte finds whichever row it begins. -/
theorem find?_utf8Rows_iff (b : Byte) (row : ByteRange × List ByteRange) :
    utf8Rows.find? (fun row => row.1.has b) = some row ↔ row ∈ utf8Rows ∧ row.1.has b = true := by
  refine ⟨fun h => ⟨List.mem_of_find?_eq_some h, ?_⟩, fun ⟨hrow, hb⟩ => ?_⟩
  · exact List.find?_some (p := fun row : ByteRange × List ByteRange => row.1.has b) h
  obtain ⟨before, after, hsplit⟩ := List.append_of_mem hrow
  have hascending := utf8Rows_ascending
  rw [hsplit, List.pairwise_append] at hascending
  obtain ⟨-, -, hbefore⟩ := hascending
  refine List.find?_eq_some_iff_append.2 ⟨hb, before, after, hsplit, fun row' hrow' => ?_⟩
  have hbelow : row'.1.hi < row.1.lo := hbefore row' hrow' row List.mem_cons_self
  rw [BitVec.lt_def] at hbelow
  rw [ByteRange.has_iff] at hb
  rw [Bool.not_eq_true', ← Bool.not_eq_true, ByteRange.has_iff]
  omega

/-! ### The scan -/

/-- Between rows, the next byte begins a row whose other ranges are then due. -/
theorem utf8Scan_between_rows (b : Byte) (rest : List Byte) :
    utf8Scan [] (b :: rest) = true ↔ ∃ row ∈ utf8Rows, row.1.has b = true ∧ utf8Scan row.2 rest = true := by
  rw [utf8Scan]
  cases hfind : utf8Rows.find? (fun row => row.1.has b) with
  | none =>
    refine iff_of_false nofun ?_
    rintro ⟨row, hrow, hb, -⟩
    simpa [hb] using List.find?_eq_none.1 hfind row hrow
  | some row =>
    obtain ⟨hrow, hb⟩ := (find?_utf8Rows_iff b row).1 hfind
    refine ⟨fun hscan => ⟨row, hrow, hb, hscan⟩, ?_⟩
    rintro ⟨row', hrow', hb', hscan⟩
    cases hfind.symm.trans ((find?_utf8Rows_iff b row').2 ⟨hrow', hb'⟩)
    exact hscan

/-- A concatenation of zero or more sequences each matching one row (R133). -/
def RowSequence (bytes : List Byte) : Prop :=
  ∃ rows : List (List Byte), bytes = rows.flatten ∧ ∀ row ∈ rows, Utf8Row row

theorem rowSequence_nil : RowSequence [] := ⟨[], rfl, by simp⟩

/-- With nothing due, the rows are all there is. -/
theorem exists_split_of_nothing_due_iff (bytes : List Byte) :
    (∃ front back, bytes = front ++ back ∧ MatchesRanges [] front ∧ RowSequence back) ↔ RowSequence bytes := by
  simp [MatchesRanges]

/-- A sequence that is not empty begins with a row of the table. -/
theorem rowSequence_cons_iff (b : Byte) (rest : List Byte) :
    RowSequence (b :: rest) ↔ ∃ row ∈ utf8Rows, row.1.has b = true ∧
      ∃ front back, rest = front ++ back ∧ MatchesRanges row.2 front ∧ RowSequence back := by
  constructor
  · rintro ⟨rows, hrows, hmatch⟩
    cases rows with
    | nil => cases hrows
    | cons first rows =>
      obtain ⟨hfirst, hall⟩ := List.forall_mem_cons.1 hmatch
      obtain ⟨row, hrow, hranges⟩ := (matchesTable_iff_utf8Row first).2 hfirst
      cases hranges with
      | cons hb hfront =>
        cases hrows
        exact ⟨row, hrow, hb, _, _, rfl, hfront, rows, rfl, hall⟩
  · rintro ⟨row, hrow, hb, front, back, rfl, hfront, rows, rfl, hall⟩
    have hfirst : Utf8Row (b :: front) := (matchesTable_iff_utf8Row _).1 ⟨row, hrow, .cons hb hfront⟩
    exact ⟨(b :: front) :: rows, rfl, List.forall_mem_cons.2 ⟨hfirst, hall⟩⟩

/-- The scan accepts bytes for the ranges due, followed by whole rows. -/
theorem utf8Scan_iff (due : List ByteRange) (bytes : List Byte) :
    utf8Scan due bytes = true ↔ ∃ front back, bytes = front ++ back ∧ MatchesRanges due front ∧ RowSequence back := by
  induction bytes generalizing due with
  | nil => cases due <;> simp [utf8Scan, rowSequence_nil]
  | cons b rest ih =>
    cases due with
    | nil => simp only [exists_split_of_nothing_due_iff, rowSequence_cons_iff, utf8Scan_between_rows, ih]
    | cons r more =>
      rw [utf8Scan_due, Bool.and_eq_true, ih]
      constructor
      · rintro ⟨hb, front, back, rfl, hfront, hback⟩
        exact ⟨b :: front, back, rfl, .cons hb hfront, hback⟩
      · rintro ⟨front, back, hsplit, hfront, hback⟩
        cases hfront with
        | cons hb hfront =>
        cases hsplit
        exact ⟨hb, _, back, rfl, hfront, hback⟩

end Sys2Proof.Machine

namespace Sys2Proof.Proofs.StrictUtf8

open Sys2Proof.Machine Sys2Proof.Reference

/-- Settles O47: the test is the scan with nothing due. -/
theorem utf8TestAcceptsConcatenationsOfRows : Obligations.Utf8TestAcceptsConcatenationsOfRows := by
  intro c bytes hspec
  rw [wellFormedUtf8_of_spec hspec]
  calc utf8WellFormed bytes = true
      ↔ ∃ front back, bytes = front ++ back ∧ MatchesRanges [] front ∧ RowSequence back := utf8Scan_iff [] bytes
    _ ↔ RowSequence bytes := exists_split_of_nothing_due_iff bytes

end Sys2Proof.Proofs.StrictUtf8
end

section
/-! The Format Validator: the integer variance test is the rational one, and the index tests of the pattern rules find
the factors they name (R150, R155 to R158). -/

namespace Sys2Proof.Machine

open Sys2Proof.Reference

/-! ### Issue bits and score -/

@[simp] theorem issueBits_dist : ∀ dist short pattern : Bool, (issueBits dist short pattern).getLsbD 0 = dist := by
  decide

@[simp] theorem issueBits_short : ∀ dist short pattern : Bool, (issueBits dist short pattern).getLsbD 1 = short := by
  decide

@[simp] theorem issueBits_pattern : ∀ dist short pattern : Bool,
    (issueBits dist short pattern).getLsbD 2 = pattern := by
  decide

/-- Each choice of deductions leaves a score of its own (R155). -/
theorem score_toNat_mem : ∀ dist short pattern : Bool,
    (score dist short pattern).toNat ∈ [100, 90, 85, 80, 75, 70, 65, 55] := by
  decide

/-! ### The variance test (R156, R157) -/

theorem symbolCount_eq_count (s : List CharCode) (g : Group) : symbolCount s g = s.count (codeOf g.toNat) := by
  rw [symbolCount, symOf_eq_codeOf, List.count]

/-- Four times a count less the sum of the four counts: 4 n / 100 of a percentage's distance from the mean. -/
def countDeviation (s : List CharCode) (g : Nat) : Int :=
  4 * (s.count (codeOf g) : Int)
    - (s.count (codeOf 0) + s.count (codeOf 1) + s.count (codeOf 2) + s.count (codeOf 3))

/-- The sum of squares in the integer form of R157. -/
def countSpread (s : List CharCode) : Int :=
  countDeviation s 0 ^ 2 + countDeviation s 1 ^ 2 + countDeviation s 2 ^ 2 + countDeviation s 3 ^ 2

theorem distVarianceExceeds300_iff (c : Config) (s : List CharCode) :
    distVarianceExceeds300 c s = true ↔
      12 * (c.varDivisor.value : Int) * ((s.length : Int) * s.length) < 25 * countSpread s := by
  have hspread : ((symbolCounts s).map fun k =>
      (4 * (k : Int) - (symbolCounts s).sum) * (4 * (k : Int) - (symbolCounts s).sum)).sum = countSpread s := by
    simp [symbolCounts, symbolCount_eq_count, countSpread, countDeviation]
    ring
  simp only [distVarianceExceeds300, hspread, decide_eq_true_eq]

/-- Division by 0 gives 0, so the empty input needs no case. -/
theorem percentage_eq (s : List CharCode) (g : Nat) :
    percentage s g = 100 * (s.count (codeOf g) : ℚ) / s.length := by
  by_cases h : s.length = 0 <;> simp [percentage, h]

theorem percentage_sub_mean (s : List CharCode) (g : Nat) :
    percentage s g - meanPercentage s = 25 * (countDeviation s g : ℚ) / s.length := by
  simp only [meanPercentage, percentage_eq, countDeviation]
  push_cast
  ring

theorem variance_eq (divisor : Nat) (s : List CharCode) :
    variance divisor s = 625 * (countSpread s : ℚ) / (divisor * (s.length * s.length)) := by
  simp only [variance, percentage_sub_mean, countSpread]
  push_cast
  ring

theorem varDivisor_value_pos (d : VarDivisor) : 0 < d.value := by
  cases d <;> decide

/-- The test of R157 in integers and without division is the test on rationals. -/
theorem distVarianceExceeds300_iff_variance (c : Config) (s : List CharCode) :
    distVarianceExceeds300 c s = true ↔ 300 < variance c.varDivisor.value s := by
  rw [distVarianceExceeds300_iff, variance_eq]
  obtain rfl | hs := eq_or_ne s []
  · simp [countSpread, countDeviation]
  · have hd : (0 : ℚ) < c.varDivisor.value := by exact_mod_cast varDivisor_value_pos c.varDivisor
    have hn : (0 : ℚ) < s.length := by exact_mod_cast List.length_pos_iff.2 hs
    rw [lt_div_iff₀ (by positivity), ← Int.cast_lt (R := ℚ)]
    push_cast
    constructor <;> intro h <;> linarith

/-! ### Windows of four elements (R158) -/

/-- An element and what follows it, cut off at its index. -/
theorem drop_eq_cons_of_getElem? {s : List CharCode} {j : Nat} {a : CharCode} (h : s[j]? = some a) :
    s.drop j = a :: s.drop (j + 1) := by
  obtain ⟨hj, rfl⟩ := List.getElem?_eq_some_iff.1 h
  exact List.drop_eq_getElem_cons hj

/-- Four consecutive elements, by index and as a factor. -/
theorem window_iff (s : List CharCode) (j : Nat) (a b c d : CharCode) :
    (s[j]? = some a ∧ s[j + 1]? = some b ∧ s[j + 2]? = some c ∧ s[j + 3]? = some d) ↔
      ∃ pre post, s = pre ++ a :: b :: c :: d :: post ∧ pre.length = j := by
  constructor
  · rintro ⟨ha, hb, hc, hd⟩
    obtain ⟨hj, -⟩ := List.getElem?_eq_some_iff.1 ha
    refine ⟨s.take j, s.drop (j + 4), ?_, List.length_take_of_le hj.le⟩
    rw [← drop_eq_cons_of_getElem? hd, ← drop_eq_cons_of_getElem? hc, ← drop_eq_cons_of_getElem? hb,
      ← drop_eq_cons_of_getElem? ha, List.take_append_drop]
  · rintro ⟨pre, post, rfl, rfl⟩
    simp

/-- The run test looks at every index where four elements begin. -/
theorem hasRun_iff (s : List CharCode) : hasRun s = true ↔ HasRun s := by
  simp only [hasRun, List.any_eq_true, List.mem_range, Bool.and_eq_true, beq_iff_eq]
  constructor
  · rintro ⟨j, hj, ⟨h01, h12⟩, h23⟩
    have h0 : s[j]? = some s[j] := List.getElem?_eq_getElem (by omega)
    have h1 := h01.symm.trans h0
    have h2 := h12.symm.trans h1
    have h3 := h23.symm.trans h2
    obtain ⟨pre, post, hs, -⟩ := (window_iff s j _ _ _ _).1 ⟨h0, h1, h2, h3⟩
    exact ⟨pre, _, post, hs⟩
  · rintro ⟨pre, c, post, hs⟩
    obtain ⟨h0, h1, h2, h3⟩ := (window_iff s pre.length c c c c).2 ⟨pre, post, hs, rfl⟩
    obtain ⟨hlen, -⟩ := List.getElem?_eq_some_iff.1 h3
    exact ⟨pre.length, by omega, ⟨h0.trans h1.symm, h1.trans h2.symm⟩, h2.trans h3.symm⟩

theorem altWindow_iff (s : List CharCode) (j : Nat) : altWindow s j = true ↔ AltWindowAt s j := by
  simp only [altWindow, Bool.and_eq_true, decide_eq_true_eq, beq_iff_eq, bne_iff_ne]
  constructor
  · rintro ⟨⟨⟨hlen, h02⟩, h13⟩, hne⟩
    have h0 : s[j]? = some s[j] := List.getElem?_eq_getElem (by omega)
    have h1 : s[j + 1]? = some s[j + 1] := List.getElem?_eq_getElem (by omega)
    obtain ⟨pre, post, hs, hpre⟩ := (window_iff s j _ _ _ _).1 ⟨h0, h1, h02.symm.trans h0, h13.symm.trans h1⟩
    exact ⟨pre, _, _, post, hs, fun hab => hne (by rw [h0, h1, hab]), hpre⟩
  · rintro ⟨pre, a, b, post, hs, hab, hpre⟩
    obtain ⟨h0, h1, h2, h3⟩ := (window_iff s j a b a b).2 ⟨pre, post, hs, hpre⟩
    obtain ⟨hlen, -⟩ := List.getElem?_eq_some_iff.1 h3
    exact ⟨⟨⟨by omega, h0.trans h2.symm⟩, h1.trans h3.symm⟩, by simpa [h0, h1] using hab⟩

/-- An alternating window lies in the sequence. -/
theorem add_four_le_of_altWindowAt {s : List CharCode} {j : Nat} (h : AltWindowAt s j) : j + 4 ≤ s.length := by
  obtain ⟨pre, a, b, post, rfl, -, rfl⟩ := h
  simp

/-- Index `i` lies in a window that `altWindow` finds: what the default coverage counts. -/
def inAltWindow (s : List CharCode) (i : Nat) : Bool :=
  (List.range s.length).any fun j => altWindow s j && decide (j ≤ i) && decide (i ≤ j + 3)

theorem altPairCoverageSpec_eq_countP (s : List CharCode) :
    altPairCoverageSpec s = (List.range s.length).countP (inAltWindow s) := rfl

/-- The search for windows and the count both stop at the last element, and no window goes beyond it. -/
theorem lt_length_and_inAltWindow_iff (s : List CharCode) (i : Nat) :
    (i < s.length ∧ inAltWindow s i = true) ↔ ∃ j, AltWindowAt s j ∧ j ≤ i ∧ i ≤ j + 3 := by
  simp only [inAltWindow, List.any_eq_true, List.mem_range, Bool.and_eq_true, decide_eq_true_eq, altWindow_iff]
  constructor
  · rintro ⟨-, j, -, ⟨hwin, hlo⟩, hhi⟩
    exact ⟨j, hwin, hlo, hhi⟩
  · rintro ⟨j, hwin, hlo, hhi⟩
    have hlen := add_four_le_of_altWindowAt hwin
    exact ⟨by omega, j, by omega, ⟨hwin, hlo⟩, hhi⟩

theorem altPairCoverageSpec_eq_coveredCount (s : List CharCode) : altPairCoverageSpec s = coveredCount s := by
  have hset : (fun i => ∃ j, AltWindowAt s j ∧ j ≤ i ∧ i ≤ j + 3 : Set Nat) =
      (((List.range s.length).filter (inAltWindow s)).toFinset : Set Nat) := by
    refine Set.ext fun i => (lt_length_and_inAltWindow_iff s i).symm.trans ?_
    rw [Finset.mem_coe, List.mem_toFinset, List.mem_filter, List.mem_range]
  rw [coveredCount, hset, Set.ncard_coe_finset, List.toFinset_card_of_nodup (List.nodup_range.filter _),
    altPairCoverageSpec_eq_countP, List.countP_eq_length_filter]

theorem altPairCoverage_eq_coverage (c : Config) (s : List CharCode) : altPairCoverage c s = coverage c s := by
  unfold altPairCoverage coverage
  cases c.altPairs with
  | spec => exact altPairCoverageSpec_eq_coveredCount s
  | other n => rfl

theorem obviousPattern_iff (c : Config) (s : List CharCode) :
    obviousPattern c s = true ↔ HasRun s ∨ (s ≠ [] ∧ 30 * s.length < 100 * coverage c s) := by
  rw [obviousPattern, altPairCoverage_eq_coverage, Bool.or_eq_true, hasRun_iff, Bool.and_eq_true, decide_eq_true_eq,
    decide_eq_true_eq, List.length_pos_iff]

/-! ### VALIDATE (R150) -/

@[simp] theorem validate_nil : validate [] = .empty := rfl

theorem validate_of_symbols {s : List CharCode} (hs : s ≠ []) (hsym : ∀ code ∈ s, IsSym code) :
    validate s = .valid := by
  have hnone : firstNonSymbol 1 s = none :=
    (firstNonSymbol_eq_none_iff 1 s).2 fun code hcode => (isSym_iff code).1 (hsym code hcode)
  simp [validate, hs, hnone]

/-- An input with an offender is not empty, so the leftmost offender is what is reported. -/
theorem validate_of_firstBad {s : List CharCode} {code pos : Nat} (h : FirstBad s code pos) :
    validate s = .badChar code pos := by
  obtain ⟨hmin, hmax⟩ := position_of_firstBad h
  rw [validate, if_neg (by omega), firstNonSymbol_of_firstBad h]

end Sys2Proof.Machine

namespace Sys2Proof.Proofs.FormatValidator

open Sys2Proof.Machine Sys2Proof.Reference

/-- VALIDATE answers what `Validate` gives (R151). -/
theorem exec_validate (s : State) (chars : List CharCode) :
    exec (.validate chars) s = .next (s.respond (.validated (validate chars))) :=
  exec_eq_respond _ s

/-- Settles O48: the three outcomes of `Validate`. -/
theorem validateReportsTheFirstBadCharacter : Obligations.ValidateReportsTheFirstBadCharacter := by
  refine ⟨fun s => ?empty, fun s chars hne hsym => ?valid, fun s chars c p hbad => ?badChar, rfl, rfl,
    fun _ _ => rfl⟩
  case empty => rw [exec_validate, validate_nil]
  case valid => rw [exec_validate, validate_of_symbols hne hsym]
  case badChar => rw [exec_validate, validate_of_firstBad hbad]

/-- Settles O49: each issue bit is its test, and each test is the rule it stands for. -/
theorem qualityAppliesTheThreeTests : Obligations.QualityAppliesTheThreeTests := by
  intro s chars
  refine ⟨_, _, exec_eq_respond (.quality chars) s, ?dist, ?short, ?pattern, score_add_deductions _ _ _⟩
  case dist => rw [issueBits_dist, distVarianceExceeds300_iff_variance]
  case short => rw [issueBits_short, decide_eq_true_eq]
  case pattern => rw [issueBits_pattern, obviousPattern_iff]

/-- Settles O50: the eight choices of deductions. -/
theorem qualityScoresAreTheEightListed : Obligations.QualityScoresAreTheEightListed :=
  fun s chars => ⟨_, _, exec_eq_respond (.quality chars) s, score_toNat_mem _ _ _⟩

end Sys2Proof.Proofs.FormatValidator
end

section
/-! The operations that always return OK (R180). -/

namespace Sys2Proof

/-- The operations R180 promises the status OK, with the operands it promises it for. -/
def Instr.AlwaysOk : Instr → Prop
  | .crcTblrd index => index.toNat ≤ 255
  | .crcCalc _ | .crcTosym _ | .symPack _ | .encode _ | .detect _ | .validate _ | .quality _ => True
  | .crcFromsym _ | .symUnpack _ | .decode _ => False

end Sys2Proof

namespace Sys2Proof.Machine

/-- The one error among these operations is BAD_COMMAND of CRC.TBLRD, which an index up to 255 avoids. -/
theorem answer_status_of_alwaysOk (c : Config) (t : CrcTable) {i : Instr} (h : i.AlwaysOk) :
    (answer c t i).status = 0#4 := by
  cases i with
  | crcTblrd index =>
    have hvalue : answer c t (.crcTblrd index) = .value (tableRead t (index.extractLsb' 0 8)) :=
      if_neg (Nat.not_lt.2 h)
    rw [hvalue]; rfl
  | crcCalc | crcTosym | symPack | encode | detect | validate | quality => rfl
  | crcFromsym | symUnpack | decode => exact h.elim

/-- An operation that is always OK completes with that status in its record, in every state. -/
theorem exec_ok_of_alwaysOk (s : State) {i : Instr} (h : i.AlwaysOk) :
    ∃ r, exec i s = .next (s.respond r) ∧ r.fields.status = 0#4 :=
  ⟨_, exec_eq_respond i s, (fields_status _).trans (answer_status_of_alwaysOk _ _ h)⟩

end Sys2Proof.Machine

namespace Sys2Proof.Proofs.AlwaysOk

open Sys2Proof.Machine

/-- Settles O22: each operation in the list is one that is always OK. -/
theorem someOperationsCannotFail : Obligations.SomeOperationsCannotFail := by
  intro s bytes chars w i hi
  refine exec_ok_of_alwaysOk s ?_
  obtain hseven | htblrd := List.mem_append.1 hi
  · simp only [List.mem_cons, List.not_mem_nil, or_false] at hseven
    obtain rfl | rfl | rfl | rfl | rfl | rfl | rfl := hseven <;> exact trivial
  · obtain ⟨hle, hmem⟩ := List.mem_ite_nil_right.1 htblrd
    obtain rfl := List.mem_singleton.1 hmem
    exact hle

end Sys2Proof.Proofs.AlwaysOk
end

section
/-! Acceptance by length (R207), and the events that reset the block or take a lane's responses (R200, R202, R204). -/

namespace Sys2Proof

/-- A mapped result fails only with the failure it had. -/
theorem eq_error_of_map_eq_error {ε α β : Type} {x : Except ε α} {f : α → β} {e : ε} (h : x.map f = .error e) :
    x = .error e := by
  cases x with
  | ok a => cases h
  | error e' => cases h; rfl

/-- What is wrong with an accepted record is its command word or an element of IN, never its length. -/
theorem decodeAccepted_error {c : Config} {r : Command} {e : DecodeError} (h : decodeAccepted c r = .error e) :
    e = .reserved ∨ e = .malformedInput := by
  obtain ⟨cmd, arg, input⟩ := r
  cases cmd using commandWord_cases with
  | reserved w hw =>
    rw [decodeAccepted_reserved c _ hw] at h
    cases h
    exact .inl rfl
  | crcTblrd | crcTosym =>
    simp only [decodeAccepted_crcTblrd, decodeAccepted_crcTosym] at h
    cases h
  | crcCalc | symPack | encode =>
    simp only [decodeAccepted_crcCalc, decodeAccepted_symPack, decodeAccepted_encode] at h
    exact .inr (readBytes_error input e (eq_error_of_map_eq_error h))
  | crcFromsym | symUnpack | decode | detect | validate | quality =>
    simp only [decodeAccepted_crcFromsym, decodeAccepted_symUnpack, decodeAccepted_decode, decodeAccepted_detect,
      decodeAccepted_validate, decodeAccepted_quality] at h
    exact .inr (readChars_error c input e (eq_error_of_map_eq_error h))

/-- Decode calls exactly the records too long that `MAX_LEN` does not admit (R207). -/
theorem decode_eq_inputTooLong_iff (c : Config) (r : Command) :
    decode c r = .error .inputTooLong ↔ ∃ m, c.maxLen = some m ∧ m < r.inLen := by
  have hlong : c.accepts r.inLen = false ↔ ∃ m, c.maxLen = some m ∧ m < r.inLen := by
    rw [← Bool.not_eq_true, c.accepts_iff]
    push Not
    rfl
  rw [← hlong]
  refine ⟨fun h => ?_, decode_of_tooLong c r⟩
  by_contra hacc
  rw [decode_of_accepted c r (by simpa using hacc)] at h
  obtain hreserved | hmalformed := decodeAccepted_error h
  · cases hreserved
  · cases hmalformed

end Sys2Proof

namespace Sys2Proof.Machine

/-! ### Commands that are too long -/

/-- Performing a record is refused for its length exactly when decode calls it too long: no operation refuses. -/
theorem perform_eq_inputTooLong_iff (r : Command) (s : State) :
    perform r s = .refused .inputTooLong ↔ decode s.config r = .error .inputTooLong := by
  unfold perform
  split
  case h_1 i hi => simp [hi, exec_eq_respond]
  case h_2 hreserved => simp [hreserved]
  case h_3 hlong => simp [hlong]
  case h_4 hmalformed => simp [hmalformed]

/-- The one event that is refused for its length is a record too long, issued to a lane that exists. -/
theorem handle_eq_inputTooLong_iff (e : HostEvent) (s : State) :
    handle e s = .refused .inputTooLong ↔
      ∃ k r, e = .issue k r ∧ k < s.lanes.length ∧ decode s.config r = .error .inputTooLong := by
  constructor
  · intro h
    cases e with
    | issue k r =>
      obtain hlane | hmissing := Nat.lt_or_ge k s.lanes.length
      · rw [handle_issue r hlane] at h
        exact ⟨k, r, rfl, hlane, (perform_eq_inputTooLong_iff r (s.onLane k)).1 h⟩
      · rw [handle_issue_missing r hmissing] at h
        cases h
    | take k =>
      obtain hlane | hmissing := Nat.lt_or_ge k s.lanes.length
      · rw [handle_take hlane] at h
        cases h
      · rw [handle_take_missing hmissing] at h
        cases h
    | reset => cases h
  · rintro ⟨k, r, rfl, hlane, hdecode⟩
    rw [handle_issue r hlane]
    exact (perform_eq_inputTooLong_iff r (s.onLane k)).2 hdecode

/-- The steps refused for length: the next event issues a record longer than `MAX_LEN` to a lane that exists. -/
theorem step_eq_inputTooLong_iff (s : State) :
    step s = .refused .inputTooLong ↔
      ∃ k r rest m, s.host = .issue k r :: rest ∧ k < s.lanes.length ∧ s.config.maxLen = some m ∧ m < r.inLen := by
  cases hhost : s.host with
  | nil => simp [step_idle s hhost]
  | cons e rest =>
    rw [step_event s e rest hhost, handle_eq_inputTooLong_iff]
    constructor
    · rintro ⟨k, r, rfl, hlane, hdecode⟩
      obtain ⟨m, hmax, hlong⟩ := (decode_eq_inputTooLong_iff s.config r).1 hdecode
      exact ⟨k, r, rest, m, rfl, hlane, hmax, hlong⟩
    · rintro ⟨k, r, rest', m, hevents, hlane, hmax, hlong⟩
      cases hevents
      exact ⟨k, r, rfl, hlane, (decode_eq_inputTooLong_iff s.config r).2 ⟨m, hmax, hlong⟩⟩

/-! ### Reset and taking -/

/-- The step of a reset event. -/
theorem step_reset {s : State} {rest : List HostEvent} (h : s.host = .reset :: rest) :
    step s = .next (State.resetEvent { s with host := rest }) :=
  step_event s .reset rest h

/-- The step that takes the responses of a lane the block has. -/
theorem step_take {s : State} {k : Nat} {rest : List HostEvent} (h : s.host = .take k :: rest)
    (hlane : k < s.lanes.length) : step s = .next (State.take { s with host := rest } k) :=
  (step_event s _ rest h).trans (handle_take hlane)

/-- A lane whose responses were taken is idle. -/
theorem State.take_lane_same {s : State} {k : Nat} (h : k < s.lanes.length) :
    (s.take k).lanes[k]? = some Lane.idle := by
  simp [h]

/-- Taking leaves every other lane as it was. -/
theorem State.take_lane_other (s : State) {j k : Nat} (h : j ≠ k) : (s.take k).lanes[j]? = s.lanes[j]? := by
  simp [h.symm]

end Sys2Proof.Machine

namespace Sys2Proof.Proofs.ResetAndHazards

open Sys2Proof.Machine

/-- Settles O6: `State.resetEvent` reads the parameters and the events to come, and nothing else. -/
theorem resetEventForgetsEverything : Obligations.ResetEventForgetsEverything :=
  fun _ _ hhost => step_reset hhost

/-- Settles O12, from the exact list of the steps refused for length. -/
theorem tooLongInputHasNoStep : Obligations.TooLongInputHasNoStep := by
  refine ⟨fun s k r rest m hhost hlane hmax hlong => ?_, fun s hunbounded hstep => ?_⟩
  · exact (step_eq_inputTooLong_iff s).2 ⟨k, r, rest, m, hhost, hlane, hmax, hlong⟩
  · obtain ⟨_, _, _, _, _, _, hmax, _⟩ := (step_eq_inputTooLong_iff s).1 hstep
    cases hunbounded.symm.trans hmax

/-- Settles O16: the frame of `State.take`, and the step without an event. -/
theorem takingEmptiesOneLaneAndIdleStepsChangeNothing :
    Obligations.TakingEmptiesOneLaneAndIdleStepsChangeNothing := by
  refine ⟨fun s k rest hhost hlane => ?_, step_idle⟩
  exact ⟨_, step_take hhost hlane, State.take_config _ _, State.take_table _ _, State.take_host _ _,
    State.take_active _ _, State.take_lane_same hlane, fun j hj => State.take_lane_other _ hj⟩

end Sys2Proof.Proofs.ResetAndHazards
end
